-- ==== Sys2Proof/Word.lean ====
section
/-! DEFINITION. The word types of the block: a byte of MEM, a 16-bit field and a 32-bit register or packet word. -/

namespace Sys2Proof

/-- One byte of MEM, or an 8-bit packet field (20_memory.md R70, 30_encoding.md R100). -/
abbrev Byte := BitVec 8

/-- A 16-bit field: imm, a coordinate bound, a format code (30_encoding.md R100, 00_scope.md R9). -/
abbrev Half := BitVec 16

/-- A 32-bit register, packet word or response word (00_scope.md R9, 30_encoding.md R100, R101). -/
abbrev Word := BitVec 32

end Sys2Proof
end

