-- ==== Sys2Proof/Config.lean ====
section
/-! DEFINITION. What an implementation fixes: the spec's constants, the OPEN parameters, and the one free value. -/

namespace Sys2Proof

/-- The number of byte addresses, 2^AW with AW = 32 (00_scope.md R9, 20_memory.md R70). -/
def Config.addressSpace : Nat := 2 ^ 32

/-- NCTRL, the number of ControlRegister entries (00_scope.md R9). -/
def Config.ctrlCount : Nat := 16

/-- The smallest pool (00_scope.md R8). -/
def Config.minSlots : Nat := 3

/-- The largest pool (00_scope.md R8). -/
def Config.maxSlots : Nat := 20

/-- The Q16 gain 1.0 (00_scope.md R8, 10_state.md R29). -/
def Config.unitGain : Word := 65536#32

/-- FREE VALUE (DESIGN CHOICE, log 11; safe): what a 32-bit register holds after a write of an exact sum
that its width cannot hold. The spec states none (a buffer that ends at address 2^32 has the exclusive end
2^32, and DMA_END has AW = 32 bits: 10_state.md R36, 20_memory.md R74). It has no body, so nothing can be
proved of it. -/
opaque Config.wideWord : Nat → Word

/-- The OPEN parameters of 00_scope.md R9, arguments of the step relation (10_state.md R43, log 2).
`pa` is the function PA of the slot index, 0 to 19. The two alignments are at least 1 (Params.Legal), and PA is
taken under the premises of 20_memory.md R74 (Params.Placed): launch premises, which no step checks (log 27). -/
structure Params where
  lineAlign   : Nat
  bufAlign    : Nat
  seed0       : Word
  scratchAddr : Word
  pa          : Vector Word 20
  deriving DecidableEq, Repr

/-- LINE_ALIGN and BUF_ALIGN are at least 1 (00_scope.md R9). -/
def Params.Legal (p : Params) : Prop := 1 ≤ p.lineAlign ∧ 1 ≤ p.bufAlign

/-- The premises of 20_memory.md R74 on PA and SCRATCH_ADDR, for a pool of n slots of `size` bytes each. -/
structure Params.Placed (p : Params) (n size : Nat) : Prop where
  /-- The pixel buffers are pairwise disjoint. -/
  buffersApart : ∀ i j : Fin 20, i.val < n → j.val < n → i ≠ j →
    p.pa[i].toNat + size ≤ p.pa[j].toNat ∨ p.pa[j].toNat + size ≤ p.pa[i].toNat
  /-- Each is disjoint from the scratch region. -/
  scratchApart : ∀ i : Fin 20, i.val < n →
    p.pa[i].toNat + size ≤ p.scratchAddr.toNat ∨ p.scratchAddr.toNat + size ≤ p.pa[i].toNat
  /-- No pixel buffer wraps around. -/
  buffersInSpace : ∀ i : Fin 20, i.val < n → p.pa[i].toNat + size ≤ 2 ^ 32
  /-- Nor does the scratch region. -/
  scratchInSpace : n ≠ 0 → p.scratchAddr.toNat + size ≤ 2 ^ 32
  /-- Every pixel buffer is aligned to BUF_ALIGN. -/
  aligned : ∀ i : Fin 20, i.val < n → p.pa[i].toNat % p.bufAlign = 0

/-- DESIGN CHOICE (log 2; unsafe): the parameter values of 95_test_vectors.md's conventions paragraph,
which State.reset carries. No statement rests on them. -/
def Params.conventions : Params where
  lineAlign   := 8
  bufAlign    := 256
  seed0       := 1#32
  scratchAddr := 0x8000#32
  pa := #v[0x1000#32, 0x1100#32, 0x1200#32, 0x1300#32, 0x1400#32, 0x1500#32, 0x1600#32,
           0x1700#32, 0x1800#32, 0x1900#32, 0x1A00#32, 0x1B00#32, 0x1C00#32, 0x1D00#32,
           0x1E00#32, 0x1F00#32, 0x2000#32, 0x2100#32, 0x2200#32, 0x2300#32]

end Sys2Proof
end

