-- ==== Sys2Proof/Syntax.lean ====
section
/-! DEFINITION. The command packet, the two ports, and the 23 operations of spec/opcode_table.json. -/

namespace Sys2Proof

/-- The two ports a packet can be presented on (30_encoding.md R100, 60_exceptions.md R260). -/
inductive Port where
  /-- Port T, the task context. -/
  | task
  /-- Port P, the interrupt context. -/
  | interrupt
  deriving DecidableEq, Repr

/-- A command packet: five 32-bit words, W0 least significant (30_encoding.md R100). -/
structure Packet where
  w0 : Word
  w1 : Word
  w2 : Word
  w3 : Word
  w4 : Word
  deriving DecidableEq, Repr

/-- The operations, one constructor per row of spec/opcode_table.json, each with the packet fields its row
uses (30_encoding.md R103). `slot` and `ctl` are the field sel. -/
inductive Instr where
  | alloc (count : Half)
  | free
  | taf
  | pub (slot : Byte) (seq : Word)
  | tar
  | rel
  | desc (slot : Byte)
  | gains (slot : Byte)
  | start (callback : Bool)
  | stop
  | isr
  | mode (fmt : Half) (width height bytesPerLine : Word)
  | getpix (slot : Byte) (x y : Word)
  | pix888 (slot : Byte) (x y : Word)
  | pix565 (slot : Byte) (x y : Word)
  | conv888 (slot : Byte) (dst : Word)
  | conv565 (slot : Byte) (dst : Word)
  | wbal (slot : Byte) (samples rounds : Word)
  | ksetup (ctl : Byte) (min max step default : Word)
  | kset (ctl : Byte) (value : Word)
  | ksetp (ctl : Byte) (percent : Half)
  | kget (ctl : Byte)
  | kinfo (ctl : Byte)
  deriving DecidableEq, Repr

end Sys2Proof
end

