-- ==== Sys2Proof/WellFormed.lean ====
section
/-! DEFINITION. Static well-formedness of an operation: no state of a pool of at most 20 slots would refuse it
for its operands alone. The decoder does not ask for it (30_encoding.md R111 gives every packet a response). -/

namespace Sys2Proof

/-- A slot selector some pool could have: below the largest N (30_encoding.md R102, 10_state.md R26). -/
def slotSelWf (slot : Byte) : Bool := slot.toNat < Config.maxSlots

/-- A control selector: below NCTRL (30_encoding.md R102). -/
def ctlSelWf (ctl : Byte) : Bool := ctl.toNat < Config.ctrlCount

/-- KSETUP's precondition min <= default <= max, signed, "a programming-error contract" (45_control.md R230). -/
def setupWf (min max default : Word) : Bool := min.toInt ≤ default.toInt && default.toInt ≤ max.toInt

/-- The operands are ones that not every state refuses (DESIGN CHOICE, log 26). -/
def Instr.wf : Instr → Bool
  | .alloc _ => true
  | .free => true
  | .taf => true
  | .pub slot _ => slotSelWf slot
  | .tar => true
  | .rel => true
  | .desc slot => slotSelWf slot
  | .gains slot => slotSelWf slot
  | .start _ => true
  | .stop => true
  | .isr => true
  | .mode _ _ _ _ => true
  | .getpix slot _ _ => slotSelWf slot
  | .pix888 slot _ _ => slotSelWf slot
  | .pix565 slot _ _ => slotSelWf slot
  | .conv888 slot _ => slotSelWf slot
  | .conv565 slot _ => slotSelWf slot
  | .wbal slot _ _ => slotSelWf slot
  | .ksetup ctl min max _ default => ctlSelWf ctl && setupWf min max default
  | .kset ctl _ => ctlSelWf ctl
  | .ksetp ctl _ => ctlSelWf ctl
  | .kget ctl => ctlSelWf ctl
  | .kinfo ctl => ctlSelWf ctl

end Sys2Proof
end

