-- ==== Sys2Proof/Decode.lean ====
section
/-! DEFINITION. The decoder from packets to operations, the port of each operation, and the encoder. -/

namespace Sys2Proof

/-- op = W0[7:0] (30_encoding.md R100). -/
def Packet.op (p : Packet) : Byte := p.w0.extractLsb' 0 8

/-- sel = W0[15:8] (30_encoding.md R100). -/
def Packet.sel (p : Packet) : Byte := p.w0.extractLsb' 8 8

/-- imm = W0[31:16] (30_encoding.md R100). -/
def Packet.imm (p : Packet) : Half := p.w0.extractLsb' 16 16

/-- What the decoder reads from a packet. -/
inductive Decoded where
  | instr (i : Instr)
  /-- The op is none of the 23 codes: the packet is answered ILLEGAL (30_encoding.md R111). -/
  | unknownOp (op : Byte)
  deriving DecidableEq, Repr

/-- The decoder matches op alone (30_encoding.md R110); a field an operation does not use is ignored (R100).
START reads bit 0 of imm only (opcode_table.json). -/
def decode (p : Packet) : Decoded :=
  match p.op with
  | 0x10#8 => .instr (.alloc p.imm)
  | 0x11#8 => .instr .free
  | 0x12#8 => .instr .taf
  | 0x13#8 => .instr (.pub p.sel p.w1)
  | 0x14#8 => .instr .tar
  | 0x15#8 => .instr .rel
  | 0x16#8 => .instr (.desc p.sel)
  | 0x17#8 => .instr (.gains p.sel)
  | 0x20#8 => .instr (.start (p.imm.getLsbD 0))
  | 0x21#8 => .instr .stop
  | 0x22#8 => .instr .isr
  | 0x23#8 => .instr (.mode p.imm p.w1 p.w2 p.w3)
  | 0x30#8 => .instr (.getpix p.sel p.w1 p.w2)
  | 0x31#8 => .instr (.pix888 p.sel p.w1 p.w2)
  | 0x32#8 => .instr (.pix565 p.sel p.w1 p.w2)
  | 0x33#8 => .instr (.conv888 p.sel p.w1)
  | 0x34#8 => .instr (.conv565 p.sel p.w1)
  | 0x35#8 => .instr (.wbal p.sel p.w1 p.w2)
  | 0x40#8 => .instr (.ksetup p.sel p.w1 p.w2 p.w3 p.w4)
  | 0x41#8 => .instr (.kset p.sel p.w1)
  | 0x42#8 => .instr (.ksetp p.sel p.imm)
  | 0x43#8 => .instr (.kget p.sel)
  | 0x44#8 => .instr (.kinfo p.sel)
  | _ => .unknownOp p.op

/-- The operation code of each operation (30_encoding.md R103). -/
def Instr.opcode : Instr → Byte
  | .alloc _ => 0x10#8
  | .free => 0x11#8
  | .taf => 0x12#8
  | .pub _ _ => 0x13#8
  | .tar => 0x14#8
  | .rel => 0x15#8
  | .desc _ => 0x16#8
  | .gains _ => 0x17#8
  | .start _ => 0x20#8
  | .stop => 0x21#8
  | .isr => 0x22#8
  | .mode _ _ _ _ => 0x23#8
  | .getpix _ _ _ => 0x30#8
  | .pix888 _ _ _ => 0x31#8
  | .pix565 _ _ _ => 0x32#8
  | .conv888 _ _ => 0x33#8
  | .conv565 _ _ => 0x34#8
  | .wbal _ _ _ => 0x35#8
  | .ksetup _ _ _ _ _ => 0x40#8
  | .kset _ _ => 0x41#8
  | .ksetp _ _ => 0x42#8
  | .kget _ => 0x43#8
  | .kinfo _ => 0x44#8

/-- The port each operation is accepted on: P for TAF, PUB and ISR, T for the others (30_encoding.md R103). -/
def Instr.port : Instr → Port
  | .alloc _ => .task
  | .free => .task
  | .taf => .interrupt
  | .pub _ _ => .interrupt
  | .tar => .task
  | .rel => .task
  | .desc _ => .task
  | .gains _ => .task
  | .start _ => .task
  | .stop => .task
  | .isr => .interrupt
  | .mode _ _ _ _ => .task
  | .getpix _ _ _ => .task
  | .pix888 _ _ _ => .task
  | .pix565 _ _ _ => .task
  | .conv888 _ _ => .task
  | .conv565 _ _ => .task
  | .wbal _ _ _ => .task
  | .ksetup _ _ _ _ _ => .task
  | .kset _ _ => .task
  | .ksetp _ _ => .task
  | .kget _ => .task
  | .kinfo _ => .task

/-- W0 from its three fields: imm in 31:16, sel in 15:8, op in 7:0 (30_encoding.md R100). -/
def headWord (op sel : Byte) (imm : Half) : Word := imm ++ sel ++ op

/-- The packet of an operation, fields it does not use written 0 (30_encoding.md R100, R103). -/
def encode (i : Instr) : Packet :=
  match i with
  | .alloc count => ⟨headWord i.opcode 0 count, 0, 0, 0, 0⟩
  | .free => ⟨headWord i.opcode 0 0, 0, 0, 0, 0⟩
  | .taf => ⟨headWord i.opcode 0 0, 0, 0, 0, 0⟩
  | .pub slot seq => ⟨headWord i.opcode slot 0, seq, 0, 0, 0⟩
  | .tar => ⟨headWord i.opcode 0 0, 0, 0, 0, 0⟩
  | .rel => ⟨headWord i.opcode 0 0, 0, 0, 0, 0⟩
  | .desc slot => ⟨headWord i.opcode slot 0, 0, 0, 0, 0⟩
  | .gains slot => ⟨headWord i.opcode slot 0, 0, 0, 0, 0⟩
  | .start callback => ⟨headWord i.opcode 0 (if callback then 1#16 else 0#16), 0, 0, 0, 0⟩
  | .stop => ⟨headWord i.opcode 0 0, 0, 0, 0, 0⟩
  | .isr => ⟨headWord i.opcode 0 0, 0, 0, 0, 0⟩
  | .mode fmt width height bytesPerLine => ⟨headWord i.opcode 0 fmt, width, height, bytesPerLine, 0⟩
  | .getpix slot x y => ⟨headWord i.opcode slot 0, x, y, 0, 0⟩
  | .pix888 slot x y => ⟨headWord i.opcode slot 0, x, y, 0, 0⟩
  | .pix565 slot x y => ⟨headWord i.opcode slot 0, x, y, 0, 0⟩
  | .conv888 slot dst => ⟨headWord i.opcode slot 0, dst, 0, 0, 0⟩
  | .conv565 slot dst => ⟨headWord i.opcode slot 0, dst, 0, 0, 0⟩
  | .wbal slot samples rounds => ⟨headWord i.opcode slot 0, samples, rounds, 0, 0⟩
  | .ksetup ctl min max step default => ⟨headWord i.opcode ctl 0, min, max, step, default⟩
  | .kset ctl value => ⟨headWord i.opcode ctl 0, value, 0, 0, 0⟩
  | .ksetp ctl percent => ⟨headWord i.opcode ctl percent, 0, 0, 0, 0⟩
  | .kget ctl => ⟨headWord i.opcode ctl 0, 0, 0, 0, 0⟩
  | .kinfo ctl => ⟨headWord i.opcode ctl 0, 0, 0, 0, 0⟩

/-- The packet whose 160 bits are the number w, bit 0 the least significant bit of W0 (30_encoding.md R100). -/
def Packet.ofNat (w : Nat) : Packet where
  w0 := BitVec.ofNat 32 w
  w1 := BitVec.ofNat 32 (w / 2 ^ 32)
  w2 := BitVec.ofNat 32 (w / 2 ^ 64)
  w3 := BitVec.ofNat 32 (w / 2 ^ 96)
  w4 := BitVec.ofNat 32 (w / 2 ^ 128)

/-- The packet of a table word of `nbits` bits, every bit above them 0. -/
def Packet.ofTableWord (nbits w : Nat) : Packet := Packet.ofNat (w % 2 ^ nbits)

/-- The operation the decoder reads from the bits w, numbered as spec/opcode_table.json numbers them. -/
def decodeTableWord (nbits w : Nat) : Option Instr :=
  match decode (Packet.ofTableWord nbits w) with
  | .instr i => some i
  | .unknownOp _ => none

end Sys2Proof
end

