-- ==== Sys2Proof/Machine/State.lean ====
section
/-! DEFINITION. The state of the block as plain data, the events of its environment, the reasons a step can
stop, and the state after reset (10_state.md). -/

namespace Sys2Proof.Machine

/-- STATE, the session state (10_state.md R32). -/
inductive Session where
  | disabled
  | streaming
  deriving DecidableEq, Repr

/-- SLOT[i], a slot's descriptor, gains and seed (10_state.md R28 to R30). -/
structure Slot where
  pa    : Word
  size  : Word
  w     : Half
  h     : Half
  bpl   : Word
  fmt   : Half
  seq   : Word
  ts    : Word
  gainR : Word
  gainG : Word
  gainB : Word
  seed  : Word
  deriving DecidableEq, Repr

/-- CTRL[k], a ControlRegister; the five values are signed 32-bit integers (10_state.md R38). -/
structure Ctrl where
  supported : Bool
  min       : Word
  max       : Word
  step      : Word
  default   : Word
  current   : Word
  deriving DecidableEq, Repr

/-- A control right after reset: unsupported; its values are unspecified by 10_state.md R44 and zero here
(DESIGN CHOICE, log 8; unsafe). -/
def Ctrl.unset : Ctrl := ⟨false, 0, 0, 0, 0, 0⟩

/-- The status codes of a response (60_exceptions.md R250). -/
inductive Status where
  | ok
  | none
  | rejected
  | fatal
  | guarded
  | illegal
  deriving DecidableEq, Repr

/-- A response: status and four result words (30_encoding.md R101). -/
structure Response where
  st : Status
  r0 : Word
  r1 : Word
  r2 : Word
  r3 : Word
  deriving DecidableEq, Repr

/-- The three lines HOST-ENV drives: the answers to the draws (00_scope.md R14, 10_state.md R43; log 3). -/
structure Draws where
  allocOk   : Bool
  bringupOk : Bool
  tick      : Word
  deriving DecidableEq, Repr

/-- The steps of agent RX (60_exceptions.md R258, 20_memory.md R78). -/
inductive RxStep where
  | fs
  | data (a : Word) (b : Byte)
  | active
  | fe (fe pkt : Bool)
  | extra (rxa pkt fe : Bool)
  deriving DecidableEq, Repr

/-- One step of one agent: a packet on a port (T or P), a step of RX, or HOST-ENV driving its lines
(00_scope.md R14, 20_memory.md R80; log 1). -/
inductive Event where
  | packet (port : Port) (p : Packet)
  | rx (r : RxStep)
  | env (d : Draws)
  deriving DecidableEq, Repr

/-- MEM: the listed bytes, addresses rising, every other byte as `blankByte` says (10_state.md R41; log 6). -/
abbrev Memory := List Host.Cell

/-- Why the machine stops. No state reached from reset under the premises of 20_memory.md R74 stops (log 13). -/
inductive Fault where
  /-- Raised by a sample read whose bytes lie at or above 2^32, where no address exists (20_memory.md R70,
  00_scope.md R12). Safe: only a buffer against the premise PA[i] + size <= 2^32 reaches it. -/
  | noSuchAddress
  /-- Raised by PUB or ISR on ring_publish outside its domain, "defined only for i == IN and not full"
  (41_ring.md R139). Safe: no reachable state meets it (42_capture.md R158). -/
  | publishUndefined
  /-- Raised by TAR or ISR when a cursor names no existing slot (10_state.md R26 says cursors are below N).
  Safe: no reachable state meets it. -/
  | slotAbsent
  deriving DecidableEq, Repr

/-- Why an instruction is refused by the model. -/
inductive Refusal where
  /-- Raised by an arm of exec whose instruction has no meaning yet; no arm raises it. Safe. -/
  | notModelled (mnemonic : String)
  deriving DecidableEq, Repr

/-- The whole machine. The fields down to `mem` are the spec's; the last four are the model's own. -/
structure State where
  /-- STATE (10_state.md R32). -/
  session     : Session
  /-- ARMED (10_state.md R35). -/
  armed       : Bool
  /-- CB_EN (10_state.md R35). -/
  cbEn        : Bool
  /-- STATUS0 (10_state.md R22). -/
  status0     : Word
  /-- STATUS1 (10_state.md R22). -/
  status1     : Word
  /-- DMA_START (10_state.md R36). -/
  dmaStart    : Word
  /-- DMA_END (10_state.md R36). -/
  dmaEnd      : Word
  /-- SEQ (10_state.md R34). -/
  seq         : Word
  /-- ATTACHED (10_state.md R33). -/
  attached    : Option Nat
  /-- SLOT[0..N-1]; N is the length of this list (10_state.md R26, R28; log 9). -/
  slots       : List Slot
  /-- IN (10_state.md R26). -/
  inCur       : Nat
  /-- OUT (10_state.md R26). -/
  outCur      : Nat
  /-- MODE_W (10_state.md R25). -/
  modeW       : Half
  /-- MODE_H (10_state.md R25). -/
  modeH       : Half
  /-- MODE_BPL (10_state.md R25). -/
  modeBpl     : Word
  /-- MODE_FMT (10_state.md R25). -/
  modeFmt     : Half
  /-- MODE_VALID (10_state.md R25). -/
  modeValid   : Bool
  /-- FRAME_ACTIVE (10_state.md R37). -/
  frameActive : Bool
  /-- CTRL[0..15] (10_state.md R38). -/
  ctrls       : Vector Ctrl 16
  /-- READY_LOG (10_state.md R40). -/
  readyLog    : List Word
  /-- MEM (10_state.md R41). -/
  mem         : Memory
  /-- The model's: the OPEN parameters, never changed (10_state.md R43; log 2). -/
  params      : Params
  /-- The model's: the lines of HOST-ENV (10_state.md R43; log 3). -/
  draws       : Draws
  /-- The model's: the events still to come, the next one first (20_memory.md R80; log 1). -/
  inputs      : List Event
  /-- The model's: the response given in the step just made, none if it was no packet (30_encoding.md R101; log 4). -/
  resp        : Option Response
  deriving DecidableEq, Repr

/-- N, the capacity: the number of slots that exist (10_state.md R26). -/
def State.n (s : State) : Nat := s.slots.length

/-- The reset values of 10_state.md R44 for given parameters. What R44 leaves unspecified is zero (log 6, 8),
the lines of HOST-ENV are as log 3 says, and no event is waiting (log 1). -/
def State.resetWith (p : Params) : State where
  session     := .disabled
  armed       := false
  cbEn        := false
  status0     := 0
  status1     := 0
  dmaStart    := 0
  dmaEnd      := 0
  seq         := 0
  attached    := none
  slots       := []
  inCur       := 0
  outCur      := 0
  modeW       := 0
  modeH       := 0
  modeBpl     := 0
  modeFmt     := 0
  modeValid   := false
  frameActive := false
  ctrls       := Vector.replicate 16 Ctrl.unset
  readyLog    := []
  mem         := []
  params      := p
  draws       := ⟨true, true, 0⟩
  inputs      := []
  resp        := none

/-- The machine right after reset (10_state.md R44, 70_reset_and_hazards.md R290). -/
def State.reset : State := State.resetWith Params.conventions

end Sys2Proof.Machine
end

