-- ==== Sys2Proof/Machine/Flags.lean ====
section
/-! DEFINITION. Status bits, the interrupt line, the ring's predicates, slot ownership, the flags word of ISR and
the status codes of a response. -/

namespace Sys2Proof.Machine

/-- RXA, STATUS0 bit 0 (10_state.md R22). -/
def bitRxa : Word := 1#32
/-- PKT, STATUS0 bit 1 (10_state.md R22). -/
def bitPkt : Word := 2#32
/-- FS, STATUS1 bit 0 (10_state.md R22). -/
def bitFs : Word := 1#32
/-- FE, STATUS1 bit 1 (10_state.md R22). -/
def bitFe : Word := 2#32

/-- A register bit when a condition holds, nothing otherwise. -/
def bitIf (cond : Bool) (bit : Word) : Word := if cond then bit else 0#32

/-- Step 2 of the handler lets an interrupt through when RXA or PKT fired (42_capture.md R157). -/
def genuine (s0 : Word) : Bool := s0.getLsbD 0 || s0.getLsbD 1

/-- Step 3 runs on a frame end or a packet-capture-complete (42_capture.md R156, R158). -/
def isBoundary (s0 s1 : Word) : Bool := s1.getLsbD 1 || s0.getLsbD 1

/-- Step 4 runs on a frame start (42_capture.md R156, R159). -/
def isFrameStart (s1 : Word) : Bool := s1.getLsbD 0

/-- Writing v to a status register clears exactly the bits that are 1 in v (10_state.md R23). -/
def writeOneToClear (status v : Word) : Word := status &&& ~~~v

/-- IRQ = ARMED and (STATUS0 != 0 or STATUS1 != 0) (10_state.md R24). -/
def State.irq (s : State) : Bool := s.armed && (s.status0 != 0#32 || s.status1 != 0#32)

/-- ready_count = (IN - OUT) mod N (10_state.md R27). -/
def State.readyCount (s : State) : Nat := (((s.inCur : Int) - (s.outCur : Int)) % (s.n : Int)).toNat

/-- empty = (IN == OUT) (10_state.md R27). -/
def State.ringEmpty (s : State) : Bool := s.inCur == s.outCur

/-- full = ((IN + 1) mod N == OUT) (10_state.md R27). -/
def State.ringFull (s : State) : Bool := (s.inCur + 1) % s.n == s.outCur

/-- The owners a slot can have (10_state.md R31). -/
inductive Owner where
  | dma
  | ready
  | application
  | free
  deriving DecidableEq, Repr

/-- i is in [OUT, IN) modulo N (10_state.md R27, R31). -/
def State.inReadyRange (s : State) (i : Nat) : Bool :=
  (((i : Int) - (s.outCur : Int)) % (s.n : Int)).toNat < s.readyCount

/-- The owner of slot i, derived state (10_state.md R31). -/
def State.owner (s : State) (i : Nat) : Owner :=
  if s.attached = some i then .dma
  else if s.inReadyRange i && i != s.outCur then .ready
  else if i == s.outCur && !s.ringEmpty then .application
  else .free

/-- ISR flag bit 0: serviced (42_capture.md R156). -/
def flagServiced : Word := 1#32
/-- ISR flag bit 1: a boundary was classified. -/
def flagBoundary : Word := 2#32
/-- ISR flag bit 2: a slot was published. -/
def flagPublished : Word := 4#32
/-- ISR flag bit 3: frame-start handling ran. -/
def flagFrameStart : Word := 8#32
/-- ISR flag bit 4: a slot was attached. -/
def flagAttached : Word := 16#32
/-- ISR flag bit 5: the scratch buffer was selected. -/
def flagScratch : Word := 32#32

/-- The code of a status (60_exceptions.md R250). -/
def Status.code : Status → Byte
  | .ok => 0x00#8
  | .none => 0x01#8
  | .rejected => 0x02#8
  | .fatal => 0x03#8
  | .guarded => 0x04#8
  | .illegal => 0xFF#8

/-- The five words V0..V4 of a response: V0[7:0] = st, V0[31:8] = 0 (30_encoding.md R101). -/
def Response.words (r : Response) : List Word := [r.st.code.setWidth 32, r.r0, r.r1, r.r2, r.r3]

end Sys2Proof.Machine
end

