-- ==== Sys2Proof/Machine/Ops.lean ====
section
/-! DEFINITION. The named operations over memory, registers, responses and the ring. -/

namespace Sys2Proof.Machine

/-- The outcome of one meaning. -/
abbrev Out := Host.Outcome State Fault Refusal

/-! ### Memory -/

/-- What a byte nothing has written reads as: MEM is unspecified after reset (10_state.md R44); zero here
(DESIGN CHOICE, log 6; unsafe). -/
def blankByte : Byte := 0#8

/-- The byte at address a. -/
def Memory.read : Memory → Nat → Byte
  | [], _ => blankByte
  | (k, v) :: m, a => if k = a then v else Memory.read m a

/-- Store byte b at address a, keeping the canonical form: addresses rising, no blank byte listed. -/
def Memory.write : Memory → Nat → Byte → Memory
  | [], a, b => if b = blankByte then [] else [(a, b)]
  | (k, v) :: m, a, b =>
    if k < a then (k, v) :: Memory.write m a b
    else if k = a then (if b = blankByte then m else (a, b) :: m)
    else (if b = blankByte then (k, v) :: m else (a, b) :: (k, v) :: m)

/-- The canonical form: addresses strictly rising, no entry equal to what an unlisted address reads as. -/
abbrev Memory.wf (m : Memory) : Prop :=
  m.Pairwise (fun c d => c.1 < d.1) ∧ ∀ c ∈ m, c.2 ≠ blankByte

/-- Store the bytes of a list at rising addresses from a. -/
def Memory.writeBytes (m : Memory) (a : Nat) : List Byte → Memory
  | [] => m
  | b :: bs => Memory.writeBytes (Memory.write m a b) (a + 1) bs

/-- The n bytes from a as one number, the byte at a least significant (00_scope.md R12, 20_memory.md R75). -/
def Memory.readLE (m : Memory) (a : Nat) : Nat → Nat
  | 0 => 0
  | n + 1 => (Memory.read m a).toNat + 256 * Memory.readLE m (a + 1) n

/-- The n low bytes of v, least significant first (00_scope.md R12, 20_memory.md R75). -/
def leBytes (v : Nat) : Nat → List Byte
  | 0 => []
  | n + 1 => BitVec.ofNat 8 v :: leBytes (v / 256) n

/-- MemRead(addr, n); no value where the bytes would pass 2^32, where no address exists (00_scope.md R12,
20_memory.md R70). -/
def memRead (m : Memory) (a n : Nat) : Option Nat :=
  if a + n ≤ Config.addressSpace then some (Memory.readLE m a n) else none

/-- Two byte regions [a, a + la) and [b, b + lb) share no address. -/
def disjointRegions (a la b lb : Nat) : Bool :=
  la == 0 || lb == 0 || a + la ≤ b || b + lb ≤ a

/-! ### Registers and responses -/

/-- A 32-bit register after a write of the exact number n: n where it fits; the free value of log 11 where
it does not (no rule states one). -/
def word32 (n : Nat) : Word :=
  if n < 2 ^ 32 then BitVec.ofNat 32 n else Config.wideWord n

/-- The response lines of a step (30_encoding.md R101). -/
def State.withResp (s : State) (r : Option Response) : State := { s with resp := r }

/-- `return ST(r0, r1, r2, r3)`: the response, in the same step as the state change; words a rule does not
name are zero (00_scope.md R13, 30_encoding.md R101). -/
def respond (s : State) (st : Status) (r0 r1 r2 r3 : Word := 0#32) : Out :=
  .next (s.withResp (some ⟨st, r0, r1, r2, r3⟩))

/-- A refused packet: ILLEGAL, all result words 0, no state change (30_encoding.md R111). This and `reject` stand
where taking an exception stands in a processor: the block raises none (00_scope.md R13). -/
def refuse (s : State) : Out := respond s .illegal

/-- REJECTED: the operation returns failure, state unchanged (60_exceptions.md R250). -/
def reject (s : State) : Out := respond s .rejected

/-- Replace SLOT[i]. -/
def State.setSlot (s : State) (i : Nat) (d : Slot) : State := { s with slots := s.slots.set i d }

/-- Replace CTRL[k]. -/
def State.setCtrl (s : State) (k : Fin 16) (c : Ctrl) : State := { s with ctrls := s.ctrls.set k c }

/-- Replace MEM. -/
def State.setMem (s : State) (m : Memory) : State := { s with mem := m }

/-- Program the DMA address pair with a region: DMA_END is the start plus the size (42_capture.md R159). -/
def State.setDma (s : State) (start : Word) (size : Nat) : State :=
  { s with dmaStart := start, dmaEnd := word32 (start.toNat + size) }

/-- Latch status bits (60_exceptions.md R258). -/
def State.latch (s : State) (b0 b1 : Word) : State :=
  { s with status0 := s.status0 ||| b0, status1 := s.status1 ||| b1 }

/-- The write-back of the values read from the two status registers (10_state.md R23, 42_capture.md R157). -/
def State.writeBackStatus (s : State) (v0 v1 : Word) : State :=
  { s with status0 := writeOneToClear s.status0 v0, status1 := writeOneToClear s.status1 v1 }

/-- MODE_H * MODE_BPL: the size of one pixel buffer of the mode and of the scratch buffer (20_memory.md R71). -/
def State.modeSize (s : State) : Nat := s.modeH.toNat * s.modeBpl.toNat

/-- The DMA pair on the scratch region (42_capture.md R152, R159). -/
def State.setDmaScratch (s : State) : State := s.setDma s.params.scratchAddr s.modeSize

/-! ### The ring's micro-operations -/

/-- ring_try_free(): some(IN) if (IN + 1) mod N != OUT, else none; no state changes (41_ring.md R138). -/
def ringTryFree (s : State) : Option Nat := if s.ringFull then none else some s.inCur

/-- IN moved one slot on; with CB_EN the sequence number q is appended to READY_LOG (41_ring.md R139). -/
def State.publishNext (s : State) (q : Word) : State :=
  { s with
    inCur := (s.inCur + 1) % s.n
    readyLog := if s.cbEn then s.readyLog ++ [q] else s.readyLog }

/-- ring_publish(i) of a slot whose descriptor is d: SLOT[i] is written, IN advances, READY(SLOT[i].seq) is
emitted. Defined only for i == IN and not full (41_ring.md R139). -/
def ringPublish (s : State) (i : Nat) (d : Slot) : Option State :=
  if i = s.inCur ∧ s.ringFull = false then some ((s.setSlot i d).publishNext d.seq) else none

end Sys2Proof.Machine
end

