-- ==== Sys2Proof/Machine/Operands.lean ====
section
/-! DEFINITION. Operand forms: slot and control selectors, the format code and its fields, sample reads, and the
preconditions the pixel operations share. -/

namespace Sys2Proof.Machine

/-! ### Selectors -/

/-- Run k on the slot sel names; a selector of no existing slot is refused (30_encoding.md R102, R111). -/
def withSlot (s : State) (sel : Byte) (k : Slot → Out) : Out :=
  match s.slots[sel.toNat]? with
  | some d => k d
  | none => refuse s

/-- Run k on the control sel names; sel >= NCTRL is refused (30_encoding.md R102, R111). -/
def withCtrl (s : State) (sel : Byte) (k : Fin 16 → Ctrl → Out) : Out :=
  if h : sel.toNat < 16 then k ⟨sel.toNat, h⟩ s.ctrls[sel.toNat] else refuse s

/-! ### The format code -/

/-- depth(fmt) = fmt[3:0] + 1 (30_encoding.md R104, 20_memory.md R73). -/
def fmtDepth (fmt : Half) : Nat := (fmt.extractLsb' 0 4).toNat + 1

/-- The packed flag fmt[12] (30_encoding.md R104). -/
def fmtPacked (fmt : Half) : Bool := fmt.getLsbD 12

/-- The colour ids (30_encoding.md R104, 00_scope.md R16). -/
inductive Colour where
  | r
  | gr
  | gb
  | b
  deriving DecidableEq, Repr

/-- The colour of an id: 0 = R, 1 = Gr, 2 = Gb, 3 = B (30_encoding.md R104). -/
def Colour.ofId (c : BitVec 2) : Colour :=
  match c with
  | 0#2 => .r
  | 1#2 => .gr
  | 2#2 => .gb
  | 3#2 => .b

/-- colour(fmt, x, y) = fmt[5 + 2q : 4 + 2q] with q = (x & 1) | ((y & 1) << 1) (30_encoding.md R105). -/
def colour (fmt : Half) (x y : Nat) : Colour :=
  let q := (x &&& 1) ||| ((y &&& 1) <<< 1)
  Colour.ofId (fmt.extractLsb' (4 + 2 * q) 2)

/-- bps(fmt), the bytes per sample; none for a format with no sample layout: packed, or a depth other than 8
and 10 (20_memory.md R73). -/
def bytesPerSample (fmt : Half) : Option Nat :=
  if fmtPacked fmt then none
  else if fmtDepth fmt = 8 then some 1
  else if fmtDepth fmt = 10 then some 2
  else none

/-- The format codes MODE accepts: bits 15:13 zero, depth 8 or 10, not packed (42_capture.md R150,
30_encoding.md R106). -/
def fmtAccepted (fmt : Half) : Bool :=
  fmt.extractLsb' 13 3 == 0#3 && (bytesPerSample fmt).isSome

/-! ### Sample reads -/

/-- Why a sample read gives no value. -/
inductive SampleStop where
  /-- The container holds 1024 or more, or the format has no layout: the operation is refused (20_memory.md R73). -/
  | malformed
  /-- The container lies past 2^32 (log 13). -/
  | noAddress
  deriving DecidableEq, Repr

/-- The byte address of the sample at (x, y) (20_memory.md R72, R73). -/
def sampleAddress (d : Slot) (bps x y : Nat) : Nat := d.pa.toNat + y * d.bpl.toNat + x * bps

/-- sample(i, x, y) (20_memory.md R73). -/
def sample (m : Memory) (d : Slot) (x y : Nat) : Except SampleStop Nat :=
  match bytesPerSample d.fmt with
  | none => .error .malformed
  | some bps =>
    match memRead m (sampleAddress d bps x y) bps with
    | none => .error .noAddress
    | some v => if bps = 2 ∧ 1024 ≤ v then .error .malformed else .ok v

/-- Run k on what was read; a malformed container refuses the operation (43_pixel.md R180 check 4). -/
def onSamples {α : Type} (s : State) (r : Except SampleStop α) (k : α → Out) : Out :=
  match r with
  | .ok a => k a
  | .error .malformed => refuse s
  | .error .noAddress => .fault .noSuchAddress

/-! ### Preconditions of the pixel operations -/

/-- decodable(i) (20_memory.md R79): the head slot while the ring is not empty, or any slot while Disabled. -/
def decodable (s : State) (i : Nat) : Bool :=
  i < s.n && ((!s.ringEmpty && i == s.outCur) || s.session == .disabled)

/-- Checks (1) and (2) of 43_pixel.md R180, then the refusal of a format with no sample layout
(20_memory.md R73, 93_implementation_defined.md U8; its place in the order is log 12). -/
def withDecodable (s : State) (sel : Byte) (k : Slot → Out) : Out :=
  withSlot s sel fun d =>
    if decodable s sel.toNat && (bytesPerSample d.fmt).isSome then k d else refuse s

/-- Checks (1) to (3) of 43_pixel.md R180: a coordinate outside the frame is REJECTED. -/
def withPixel (s : State) (sel : Byte) (x y : Word) (k : Slot → Out) : Out :=
  withDecodable s sel fun d =>
    if x.toNat < d.w.toNat ∧ y.toNat < d.h.toNat then k d else reject s

end Sys2Proof.Machine
end

