-- ==== Sys2Proof/Machine/Capture.lean ====
section
/-! DEFINITION. Family 2, the capture engine: MODE, START, STOP, ISR (42_capture.md). -/

namespace Sys2Proof.Machine

/-- The geometry MODE accepts for `bps` bytes per sample (42_capture.md R150, 20_memory.md R76). -/
def geometryAccepted (p : Params) (bps width height bpl : Nat) : Bool :=
  1 ≤ width && width ≤ 65535 && 1 ≤ height && height ≤ 65535
    && width * bps ≤ bpl && bpl % p.lineAlign == 0 && height * bpl < 2 ^ 32

/-- MODE (42_capture.md R150). -/
def execMode (fmt : Half) (width height bytesPerLine : Word) (s : State) : Out :=
  if s.session ≠ .disabled ∨ s.n ≠ 0 then reject s
  else if fmtAccepted fmt = false then reject s
  else if geometryAccepted s.params ((bytesPerSample fmt).getD 0)
      width.toNat height.toNat bytesPerLine.toNat = false then reject s
  else
    respond
      { s with
        modeW := width.setWidth 16
        modeH := height.setWidth 16
        modeBpl := bytesPerLine
        modeFmt := fmt
        modeValid := true }
      .ok (word32 (height.toNat * bytesPerLine.toNat))

/-- The engine with nothing attached, no condition latched and no frame arriving (42_capture.md R152, R153). -/
def State.clearEngine (s : State) : State :=
  { s with attached := none, status0 := 0#32, status1 := 0#32, frameActive := false }

/-- START (42_capture.md R152). -/
def execStart (callback : Bool) (s : State) : Out :=
  if s.session = .streaming ∨ s.n = 0 ∨ s.modeValid = false then reject s
  else if s.draws.bringupOk = false then respond s .fatal
  else
    respond
      { s.setDmaScratch.clearEngine with cbEn := callback, armed := true, session := .streaming }
      .ok

/-- STOP (42_capture.md R153). -/
def execStop (s : State) : Out :=
  if s.session = .disabled then reject s
  else respond { s.clearEngine with armed := false, session := .disabled } .ok

/-- The descriptor of an attached slot, stamped at a frame end (42_capture.md R158). -/
def State.stamped (s : State) (d : Slot) : Slot :=
  { d with seq := s.seq, w := s.modeW, h := s.modeH, bpl := s.modeBpl, fmt := s.modeFmt }

/-- frame_end(), step 3 of ISR, with the flags it adds (42_capture.md R158). -/
def frameEnd (s : State) : Except Fault (State × Word) :=
  match s.attached with
  | none => .ok ({ s with seq := s.seq + 1#32 }, flagBoundary)
  | some i =>
    match s.slots[i]? with
    | none => .error .slotAbsent
    | some d =>
      match ringPublish s i (s.stamped d) with
      | none => .error .publishUndefined
      | some t =>
        .ok ({ t with attached := none, seq := s.seq + 1#32 }, flagBoundary ||| flagPublished)

/-- frame_start(), step 4 of ISR and the DMA address selection, with the flags it adds (42_capture.md R159). -/
def frameStart (s : State) : Except Fault (State × Word) :=
  match s.attached with
  | some _ => .ok (s, flagFrameStart)
  | none =>
    match ringTryFree s with
    | none => .ok (s.setDmaScratch, flagFrameStart ||| flagScratch)
    | some i =>
      match s.slots[i]? with
      | none => .error .slotAbsent
      | some d =>
        .ok ({ (s.setSlot i { d with ts := s.draws.tick }).setDma d.pa d.size.toNat with
                attached := some i },
          flagFrameStart ||| flagAttached)

/-- A step of the handler that runs only on its condition and adds its flags. -/
def isrStep (cond : Bool) (f : State → Except Fault (State × Word)) (s : State) (flags : Word) :
    Except Fault (State × Word) :=
  if cond then
    match f s with
    | .error e => .error e
    | .ok (t, g) => .ok (t, flags ||| g)
  else .ok (s, flags)

/-- ISR (42_capture.md R156): read and write back the status registers, return if not streaming or spurious,
classify a boundary, handle a frame start. -/
def execIsr (s : State) : Out :=
  let s0 := s.status0
  let s1 := s.status1
  let t := s.writeBackStatus s0 s1
  if t.session ≠ .streaming ∨ genuine s0 = false then respond t .ok
  else
    match isrStep (isBoundary s0 s1) frameEnd t flagServiced with
    | .error e => .fault e
    | .ok (u, flags) =>
      match isrStep (isFrameStart s1) frameStart u flags with
      | .error e => .fault e
      | .ok (v, flags) => respond v .ok flags

end Sys2Proof.Machine
end

