-- ==== Sys2Proof/Machine/Control.lean ====
section
/-! DEFINITION. Family 4, the control registers: KSETUP, KSET, KSETP, KGET, KINFO (45_control.md). -/

namespace Sys2Proof.Machine

/-- KSETUP (45_control.md R230); the operands are signed 32-bit integers. -/
def execKsetup (ctl : Byte) (min max step default : Word) (s : State) : Out :=
  withCtrl s ctl fun k _ =>
    if min.toInt ≤ default.toInt ∧ default.toInt ≤ max.toInt then
      respond (s.setCtrl k ⟨true, min, max, step, default, default⟩) .ok
    else refuse s

/-- KSET (45_control.md R231). -/
def execKset (ctl : Byte) (value : Word) (s : State) : Out :=
  withCtrl s ctl fun k c =>
    if c.supported = false then reject s
    else if value.toInt < c.min.toInt ∨ c.max.toInt < value.toInt then reject s
    else respond (s.setCtrl k { c with current := value }) .ok

/-- min + ((max - min) * p) div 100, exact, truncating toward zero (45_control.md R232, 00_scope.md R10). -/
def percentValue (c : Ctrl) (p : Nat) : Int :=
  c.min.toInt + ((c.max.toInt - c.min.toInt) * (p : Int)).tdiv 100

/-- KSETP (45_control.md R232). -/
def execKsetp (ctl : Byte) (percent : Half) (s : State) : Out :=
  withCtrl s ctl fun k c =>
    if 100 < percent.toNat then reject s
    else if c.supported = false then reject s
    else
      let v := BitVec.ofInt 32 (percentValue c percent.toNat)
      respond (s.setCtrl k { c with current := v }) .ok v

/-- KGET (45_control.md R233). -/
def execKget (ctl : Byte) (s : State) : Out :=
  withCtrl s ctl fun _ c => if c.supported = false then reject s else respond s .ok c.current

/-- KINFO (45_control.md R234). -/
def execKinfo (ctl : Byte) (s : State) : Out :=
  withCtrl s ctl fun _ c =>
    if c.supported = false then respond s .none else respond s .ok c.min c.max c.step c.default

end Sys2Proof.Machine
end

