-- ==== Sys2Proof/Machine/Pixel.lean ====
section
/-! DEFINITION. Family 3, pixel decode and conversion: GETPIX, PIX888, PIX565, CONV888, CONV565 (43_pixel.md). -/

namespace Sys2Proof.Machine

/-- A triple of channel values (00_scope.md R16). -/
structure Rgb where
  r : Nat
  g : Nat
  b : Nat
  deriving DecidableEq, Repr

/-- The zero colour (43_pixel.md R183). -/
def Rgb.zero : Rgb := ⟨0, 0, 0⟩

/-- The average of two samples, truncated (43_pixel.md R181, R184). -/
def average2 (a b : Nat) : Nat := (a + b) / 2

/-- The average of four samples, truncated (43_pixel.md R181, R184). -/
def average4 (a b c d : Nat) : Nat := (a + b + c + d) / 4

/-- orth: the average of the four orthogonal neighbours (43_pixel.md R181). -/
def orthogonal (m : Memory) (d : Slot) (x y : Nat) : Except SampleStop Nat := do
  let l ← sample m d (x - 1) y
  let r ← sample m d (x + 1) y
  let u ← sample m d x (y - 1)
  let b ← sample m d x (y + 1)
  pure (average4 l r u b)

/-- diag: the average of the four diagonal neighbours (43_pixel.md R181). -/
def diagonal (m : Memory) (d : Slot) (x y : Nat) : Except SampleStop Nat := do
  let ul ← sample m d (x - 1) (y - 1)
  let ur ← sample m d (x + 1) (y - 1)
  let bl ← sample m d (x - 1) (y + 1)
  let br ← sample m d (x + 1) (y + 1)
  pure (average4 ul ur bl br)

/-- hor: the average of the two horizontal neighbours (43_pixel.md R181). -/
def horizontal (m : Memory) (d : Slot) (x y : Nat) : Except SampleStop Nat := do
  let l ← sample m d (x - 1) y
  let r ← sample m d (x + 1) y
  pure (average2 l r)

/-- ver: the average of the two vertical neighbours (43_pixel.md R181). -/
def vertical (m : Memory) (d : Slot) (x y : Nat) : Except SampleStop Nat := do
  let u ← sample m d x (y - 1)
  let b ← sample m d x (y + 1)
  pure (average2 u b)

/-- (x, y) is a border pixel (43_pixel.md R183). -/
def isBorder (d : Slot) (x y : Nat) : Bool :=
  x == 0 || x + 1 == d.w.toNat || y == 0 || y + 1 == d.h.toNat

/-- demosaic(i, x, y) for a pixel inside the frame; only the samples of the chosen case are read (43_pixel.md R181). -/
def demosaic (m : Memory) (d : Slot) (x y : Nat) : Except SampleStop Rgb :=
  if isBorder d x y then .ok Rgb.zero
  else
    match colour d.fmt x y with
    | .r => do
      let c ← sample m d x y
      let o ← orthogonal m d x y
      let g ← diagonal m d x y
      pure ⟨c, o, g⟩
    | .b => do
      let g ← diagonal m d x y
      let o ← orthogonal m d x y
      let c ← sample m d x y
      pure ⟨g, o, c⟩
    | .gr => do
      let h ← horizontal m d x y
      let c ← sample m d x y
      let v ← vertical m d x y
      pure ⟨h, c, v⟩
    | .gb => do
      let v ← vertical m d x y
      let c ← sample m d x y
      let h ← horizontal m d x y
      pure ⟨v, c, h⟩

/-- scale(v, g, d, t) = min((v * g) >> (d - t + 16), 2^t - 1) (43_pixel.md R186). -/
def scale (v : Nat) (g : Word) (depth bits : Nat) : Nat :=
  min ((v * g.toNat) >>> (depth - bits + 16)) (2 ^ bits - 1)

/-- The RGB888 channels of a raw triple (43_pixel.md R187). -/
def toRgb888 (d : Slot) (p : Rgb) : Rgb where
  r := scale p.r d.gainR (fmtDepth d.fmt) 8
  g := scale p.g d.gainG (fmtDepth d.fmt) 8
  b := scale p.b d.gainB (fmtDepth d.fmt) 8

/-- word = (R5 << 11) | (G6 << 5) | B5 (30_encoding.md R109). -/
def packRgb565 (r5 g6 b5 : Nat) : Nat := (r5 <<< 11) ||| (g6 <<< 5) ||| b5

/-- The RGB565 word of a raw triple (43_pixel.md R188). -/
def toRgb565 (d : Slot) (p : Rgb) : Nat :=
  packRgb565 (scale p.r d.gainR (fmtDepth d.fmt) 5) (scale p.g d.gainG (fmtDepth d.fmt) 6)
    (scale p.b d.gainB (fmtDepth d.fmt) 5)

/-- GETPIX (43_pixel.md R182). -/
def execGetpix (slot : Byte) (x y : Word) (s : State) : Out :=
  withPixel s slot x y fun d =>
    onSamples s (demosaic s.mem d x.toNat y.toNat) fun p =>
      respond s .ok (word32 p.r) (word32 p.g) (word32 p.b)

/-- PIX888 (43_pixel.md R187). -/
def execPix888 (slot : Byte) (x y : Word) (s : State) : Out :=
  withPixel s slot x y fun d =>
    onSamples s (demosaic s.mem d x.toNat y.toNat) fun p =>
      respond s .ok (word32 (toRgb888 d p).r) (word32 (toRgb888 d p).g) (word32 (toRgb888 d p).b)

/-- PIX565 (43_pixel.md R188). -/
def execPix565 (slot : Byte) (x y : Word) (s : State) : Out :=
  withPixel s slot x y fun d =>
    onSamples s (demosaic s.mem d x.toNat y.toNat) fun p => respond s .ok (word32 (toRgb565 d p))

/-! ### Full-frame conversion -/

/-- The pixels of a w by h frame in raster order (43_pixel.md R189). -/
def raster (w h : Nat) : List (Nat × Nat) :=
  (List.range h).flatMap fun y => (List.range w).map fun x => (x, y)

/-- The bytes of the listed pixels, one after the other; the first sample that stops stops them all. -/
def convertPixels (m : Memory) (d : Slot) (bytesOf : Rgb → List Byte) :
    List (Nat × Nat) → Except SampleStop (List Byte)
  | [] => .ok []
  | (x, y) :: ps => do
    let p ← demosaic m d x y
    let rest ← convertPixels m d bytesOf ps
    pure (bytesOf p ++ rest)

/-- The destination [dst, dst + len) lies below 2^32 and overlaps no pixel buffer of the pool and not the
scratch region (20_memory.md R87). -/
def destinationAdmitted (s : State) (dst len : Nat) : Bool :=
  dst + len ≤ Config.addressSpace
    && s.slots.all (fun d => disjointRegions dst len d.pa.toNat d.size.toNat)
    && disjointRegions dst len s.params.scratchAddr.toNat s.modeSize

/-- CONV888 and CONV565 with `bpp` output bytes per pixel: the writes take effect together, and none if a
sample read is refused (43_pixel.md R189, R190, 00_scope.md R11; log 21). -/
def convertFrame (slot : Byte) (dst : Word) (bpp : Nat) (bytesOf : Slot → Rgb → List Byte)
    (s : State) : Out :=
  withDecodable s slot fun d =>
    let len := bpp * (d.w.toNat * d.h.toNat)
    if destinationAdmitted s dst.toNat len = false then refuse s
    else
      onSamples s (convertPixels s.mem d (bytesOf d) (raster d.w.toNat d.h.toNat)) fun bs =>
        respond (s.setMem (Memory.writeBytes s.mem dst.toNat bs)) .ok (word32 len)

/-- The three bytes R, G, B of a pixel (30_encoding.md R108). -/
def bytes888 (d : Slot) (p : Rgb) : List Byte :=
  [BitVec.ofNat 8 (toRgb888 d p).r, BitVec.ofNat 8 (toRgb888 d p).g, BitVec.ofNat 8 (toRgb888 d p).b]

/-- The two bytes of a pixel's RGB565 word, low byte first (30_encoding.md R109, 20_memory.md R75). -/
def bytes565 (d : Slot) (p : Rgb) : List Byte := leBytes (toRgb565 d p) 2

/-- CONV888 (43_pixel.md R189). -/
def execConv888 (slot : Byte) (dst : Word) (s : State) : Out := convertFrame slot dst 3 bytes888 s

/-- CONV565 (43_pixel.md R190). -/
def execConv565 (slot : Byte) (dst : Word) (s : State) : Out := convertFrame slot dst 2 bytes565 s

end Sys2Proof.Machine
end

