-- ==== Sys2Proof/Machine/Ring.lean ====
section
/-! DEFINITION. Family 1, the buffer ring: ALLOC, FREE, TAF, PUB, TAR, REL, DESC, GAINS (41_ring.md). -/

namespace Sys2Proof.Machine

/-- clamp(imm, 3, 20), the capacity ALLOC gives (41_ring.md R130, 00_scope.md R10). -/
def clampCount (count : Half) : Nat := min (max count.toNat Config.minSlots) Config.maxSlots

/-- The descriptor ALLOC gives a slot whose buffer is at `pa` (41_ring.md R130). -/
def State.freshSlot (s : State) (pa : Word) : Slot where
  pa    := pa
  size  := word32 s.modeSize
  w     := s.modeW
  h     := s.modeH
  bpl   := s.modeBpl
  fmt   := s.modeFmt
  seq   := 0
  ts    := 0
  gainR := Config.unitGain
  gainG := Config.unitGain
  gainB := Config.unitGain
  seed  := s.params.seed0

/-- ALLOC (41_ring.md R130). The bytes of MEM are left as they are (log 7). -/
def execAlloc (count : Half) (s : State) : Out :=
  if s.session ≠ .disabled ∨ s.n ≠ 0 ∨ s.modeValid = false then reject s
  else if s.draws.allocOk = false then respond s .fatal
  else
    respond
      { s with
        slots := (s.params.pa.toList.take (clampCount count)).map s.freshSlot
        inCur := 0
        outCur := 0 }
      .ok (BitVec.ofNat 32 (clampCount count))

/-- FREE (41_ring.md R131). -/
def execFree (s : State) : Out :=
  if s.n = 0 then refuse s
  else if s.session ≠ .disabled then reject s
  else respond { s with slots := [], inCur := 0, outCur := 0 } .ok

/-- TAF (41_ring.md R132). -/
def execTaf (s : State) : Out :=
  if s.n = 0 ∨ s.session = .streaming then refuse s
  else
    match ringTryFree s with
    | none => respond s .none
    | some i => respond s .ok (word32 i)

/-- PUB (41_ring.md R133); sel is checked first (60_exceptions.md R256). -/
def execPub (slot : Byte) (seq : Word) (s : State) : Out :=
  withSlot s slot fun d =>
    if s.session = .streaming then refuse s
    else if slot.toNat ≠ s.inCur ∨ s.ringFull then refuse s
    else
      match ringPublish s slot.toNat { d with seq := seq } with
      | none => .fault .publishUndefined
      | some t => respond t .ok seq

/-- TAR (41_ring.md R134). -/
def execTar (s : State) : Out :=
  if s.n = 0 then refuse s
  else if s.ringEmpty then respond s .none
  else
    match s.slots[s.outCur]? with
    | none => .fault .slotAbsent
    | some d => respond s .ok (word32 s.outCur) d.seq d.ts (d.fmt.setWidth 32)

/-- REL (41_ring.md R135). -/
def execRel (s : State) : Out :=
  if s.n = 0 then refuse s
  else if s.ringEmpty then refuse s
  else respond { s with outCur := (s.outCur + 1) % s.n } .ok

/-- DESC (41_ring.md R136). -/
def execDesc (slot : Byte) (s : State) : Out :=
  withSlot s slot fun d =>
    respond s .ok (d.w.setWidth 32) (d.h.setWidth 32) d.bpl (d.fmt.setWidth 32)

/-- GAINS (41_ring.md R137). -/
def execGains (slot : Byte) (s : State) : Out :=
  withSlot s slot fun d => respond s .ok d.gainR d.gainG d.gainB d.seed

end Sys2Proof.Machine
end

