-- ==== Sys2Proof/Machine/WhiteBalance.lean ====
section
/-! DEFINITION. Family 3b, the adaptive white balance: WBAL (44_whitebalance.md). -/

namespace Sys2Proof.Machine

/-- The generator's next seed: seed * 1103515245 + 12345 modulo 2^32 (44_whitebalance.md R211). -/
def wbNext (seed : Word) : Word := seed * 1103515245#32 + 12345#32

/-- The value of an updated seed: (seed' div 65536) mod 32768 (44_whitebalance.md R211). -/
def wbValue (seed : Word) : Nat := seed.toNat / 65536 % 32768

/-- wb_rand(seed) = (seed', value) (44_whitebalance.md R211). -/
def wbRand (seed : Word) : Word × Nat := (wbNext seed, wbValue (wbNext seed))

/-- wb_map(value, dim) = 1 + (value mod (dim - 2)), WB_MAP's default (44_whitebalance.md R212; log 15). -/
def wbMap (value dim : Nat) : Nat := 1 + value % (dim - 2)

/-- The larger of each channel (44_whitebalance.md R213). -/
def Rgb.max (a b : Rgb) : Rgb := ⟨Nat.max a.r b.r, Nat.max a.g b.g, Nat.max a.b b.b⟩

/-- The sum of each channel. -/
def Rgb.add (a b : Rgb) : Rgb := ⟨a.r + b.r, a.g + b.g, a.b + b.b⟩

/-- One round of n samples from the running maxima mx: x is drawn before y (44_whitebalance.md R210, R212). -/
def wbRound (m : Memory) (d : Slot) : Nat → Word → Rgb → Except SampleStop (Word × Rgb)
  | 0, seed, mx => .ok (seed, mx)
  | n + 1, seed, mx => do
    let (seed, vx) := wbRand seed
    let x := wbMap vx d.w.toNat
    let (seed, vy) := wbRand seed
    let y := wbMap vy d.h.toNat
    let p ← demosaic m d x y
    wbRound m d n seed (mx.max p)

/-- The rounds: each starts its maxima at zero and adds them to the running total (44_whitebalance.md R210, R213). -/
def wbRounds (m : Memory) (d : Slot) (samples : Nat) :
    Nat → Word → Rgb → Except SampleStop (Word × Rgb)
  | 0, seed, total => .ok (seed, total)
  | k + 1, seed, total => do
    let (seed, mx) ← wbRound m d samples seed Rgb.zero
    wbRounds m d samples k seed (total.add mx)

/-- Search for the root bit by bit, from bit k - 1 down. -/
def isqrtFrom (n : Nat) : Nat → Nat → Nat
  | 0, r => r
  | k + 1, r => isqrtFrom n k (if (r + 2 ^ k) * (r + 2 ^ k) ≤ n then r + 2 ^ k else r)

/-- isqrt(n), the largest r with r * r <= n, for n below 2^64 (00_scope.md R10, 44_whitebalance.md R214; log 19). -/
def isqrt (n : Nat) : Nat := isqrtFrom n 32 0

/-- target = isqrt of the truncated mean of the squared totals (44_whitebalance.md R210 step 4, R214). -/
def wbTarget (t : Rgb) : Nat := isqrt ((t.r * t.r + t.g * t.g + t.b * t.b) / 3)

/-- gain = min((65536 * target) div total, 2^GW - 1) (44_whitebalance.md R210 step 4, R214). -/
def wbGain (target total : Nat) : Word := BitVec.ofNat 32 (min (65536 * target / total) (2 ^ 32 - 1))

/-- SLOT[sel] with new gains and seed. -/
def Slot.balanced (d : Slot) (r g b seed : Word) : Slot :=
  { d with gainR := r, gainG := g, gainB := b, seed := seed }

/-- Steps 3 and 4: the zero guard, or the gains of the totals (44_whitebalance.md R210, R215). -/
def wbFinish (s : State) (i : Nat) (d : Slot) (seed : Word) (total : Rgb) : Out :=
  if total.r = 0 ∨ total.g = 0 ∨ total.b = 0 then
    respond (s.setSlot i (d.balanced Config.unitGain Config.unitGain Config.unitGain seed))
      .guarded Config.unitGain Config.unitGain Config.unitGain
  else
    let target := wbTarget total
    let r := wbGain target total.r
    let g := wbGain target total.g
    let b := wbGain target total.b
    respond (s.setSlot i (d.balanced r g b seed)) .ok r g b

/-- WBAL (44_whitebalance.md R210). -/
def execWbal (slot : Byte) (samples rounds : Word) (s : State) : Out :=
  withDecodable s slot fun d =>
    if d.w.toNat < 3 ∨ d.h.toNat < 3 ∨ 65535 < samples.toNat ∨ 65535 < rounds.toNat then reject s
    else
      onSamples s (wbRounds s.mem d samples.toNat rounds.toNat d.seed Rgb.zero) fun r =>
        wbFinish s slot.toNat d r.1 r.2

end Sys2Proof.Machine
end

