-- ==== Sys2Proof/Machine/Dispatch.lean ====
section
/-! DEFINITION. One arm per operation. -/

namespace Sys2Proof.Machine

def exec (i : Instr) (s : State) : Host.Outcome State Fault Refusal :=
  match i with
  | .alloc count => Sys2Proof.Machine.execAlloc count s
  | .free => Sys2Proof.Machine.execFree s
  | .taf => Sys2Proof.Machine.execTaf s
  | .pub slot seq => Sys2Proof.Machine.execPub slot seq s
  | .tar => Sys2Proof.Machine.execTar s
  | .rel => Sys2Proof.Machine.execRel s
  | .desc slot => Sys2Proof.Machine.execDesc slot s
  | .gains slot => Sys2Proof.Machine.execGains slot s
  | .start callback => Sys2Proof.Machine.execStart callback s
  | .stop => Sys2Proof.Machine.execStop s
  | .isr => Sys2Proof.Machine.execIsr s
  | .mode fmt width height bytesPerLine => Sys2Proof.Machine.execMode fmt width height bytesPerLine s
  | .getpix slot x y => Sys2Proof.Machine.execGetpix slot x y s
  | .pix888 slot x y => Sys2Proof.Machine.execPix888 slot x y s
  | .pix565 slot x y => Sys2Proof.Machine.execPix565 slot x y s
  | .conv888 slot dst => Sys2Proof.Machine.execConv888 slot dst s
  | .conv565 slot dst => Sys2Proof.Machine.execConv565 slot dst s
  | .wbal slot samples rounds => Sys2Proof.Machine.execWbal slot samples rounds s
  | .ksetup ctl min max step default => Sys2Proof.Machine.execKsetup ctl min max step default s
  | .kset ctl value => Sys2Proof.Machine.execKset ctl value s
  | .ksetp ctl percent => Sys2Proof.Machine.execKsetp ctl percent s
  | .kget ctl => Sys2Proof.Machine.execKget ctl s
  | .kinfo ctl => Sys2Proof.Machine.execKinfo ctl s

end Sys2Proof.Machine
end

