-- ==== Sys2Proof/Machine/Agents.lean ====
section
/-! DEFINITION. One step of each agent: a packet of T or P, a step of RX, the lines of HOST-ENV
(00_scope.md R14, 20_memory.md R80). -/

namespace Sys2Proof.Machine

/-- A packet on a port: an unknown op, then a wrong port, is ILLEGAL; else the operation runs
(30_encoding.md R111, 60_exceptions.md R256). -/
def runPacket (port : Port) (p : Packet) (s : State) : Out :=
  match decode p with
  | .unknownOp _ => refuse s
  | .instr i => if i.port = port then exec i s else refuse s

/-- The enabling condition of each RX step (60_exceptions.md R258, 20_memory.md R78). -/
def rxEnabled (r : RxStep) (s : State) : Bool :=
  s.session == .streaming &&
    match r with
    | .fs => !s.frameActive
    | .data a _ => s.frameActive && s.dmaStart.toNat ≤ a.toNat && a.toNat < s.dmaEnd.toNat
    | .active => s.frameActive
    | .fe fe pkt => s.frameActive && (fe || pkt)
    | .extra _ _ _ => !s.frameActive

/-- The effect of each RX step (60_exceptions.md R258). -/
def rxEffect (r : RxStep) (s : State) : State :=
  match r with
  | .fs => { s.latch bitRxa bitFs with frameActive := true }
  | .data a b => s.setMem (Memory.write s.mem a.toNat b)
  | .active => s.latch bitRxa 0#32
  | .fe fe pkt => { s.latch (bitRxa ||| bitIf pkt bitPkt) (bitIf fe bitFe) with frameActive := false }
  | .extra rxa pkt fe => s.latch (bitIf rxa bitRxa ||| bitIf pkt bitPkt) (bitIf fe bitFe)

/-- A step of RX; an event whose step is not enabled is no step of RX and changes nothing (log 14). -/
def runRx (r : RxStep) (s : State) : State :=
  if rxEnabled r s then (rxEffect r s).withResp none else s.withResp none

/-- HOST-ENV drives its lines (00_scope.md R14; log 3). -/
def runEnv (d : Draws) (s : State) : State := { s.withResp none with draws := d }

/-- One event. -/
def runEvent (e : Event) (s : State) : Out :=
  match e with
  | .packet port p => runPacket port p s
  | .rx r => .next (runRx r s)
  | .env d => .next (runEnv d s)

/-- With no event waiting the block does nothing: it acts only on packets and RX steps (10_state.md R21). -/
def idle (s : State) : Out := .next (s.withResp none)

/-- The next event is taken from the list of those to come; its response, if any, is this step's. -/
def runNext (s : State) : Out :=
  match s.inputs with
  | [] => idle s
  | e :: rest => runEvent e { s with inputs := rest }

/-- The event that presents a packet on the port its operation is accepted on (port T for an unknown op). -/
def presentedOnItsPort (p : Packet) : Event :=
  match decode p with
  | .instr i => .packet i.port p
  | .unknownOp _ => .packet .task p

end Sys2Proof.Machine
end

