-- ==== Sys2Proof/Machine/Step.lean ====
section
/-! DEFINITION. The step function, and where the next instruction is placed. -/

namespace Sys2Proof.Machine

/-- One atomic step: the next event of the interleaving (20_memory.md R80). -/
def step (s : State) : Host.Outcome State Fault Refusal := runNext s

/-- s with the packet of those bits as the next event, on its operation's own port (log 1). -/
def State.withFetchWord (s : State) (nbits w : Nat) : State :=
  { s with inputs := presentedOnItsPort (Packet.ofTableWord nbits w) :: s.inputs }

end Sys2Proof.Machine
end

