-- ==== Sys2Proof/Safety.lean ====
section
/-! DEFINITION. The words the statements use: what the spec says a state keeps (the invariant), the premises on
buffer addresses, and the spec's formulas for samples, colours and white balance read straight off MEM, written
apart from the meanings so that a statement compares two texts. -/

namespace Sys2Proof.Machine

/-! ### Answers -/

/-- s with a response as the only change. -/
def State.answering (s : State) (st : Status) (r0 r1 r2 r3 : Word := 0#32) : State :=
  { s with resp := some ⟨st, r0, r1, r2, r3⟩ }

/-- The next event is a packet of operation i on its own port. -/
def State.Runs (s : State) (i : Instr) : Prop :=
  ∃ p rest, s.inputs = .packet i.port p :: rest ∧ decode p = .instr i

/-- s with its next event taken, and no response yet. -/
def State.taking (s : State) (rest : List Event) : State := { s with inputs := rest, resp := none }

/-! ### The invariant -/

/-- N is 0 with both cursors 0, or 3 <= N <= 20 with both cursors below N (10_state.md R26, R44). -/
def State.RingOk (s : State) : Prop :=
  (s.n = 0 ∧ s.inCur = 0 ∧ s.outCur = 0) ∨
    (3 ≤ s.n ∧ s.n ≤ 20 ∧ s.inCur < s.n ∧ s.outCur < s.n)

/-- Disabled: not armed, nothing attached, no condition latched, no frame arriving (42_capture.md R153,
10_state.md R44). Streaming: armed, with a pool and a mode (42_capture.md R152). -/
def State.EngineOk (s : State) : Prop :=
  (s.session = .disabled →
    s.armed = false ∧ s.attached = none ∧ s.status0 = 0#32 ∧ s.status1 = 0#32 ∧ s.frameActive = false) ∧
  (s.session = .streaming → s.armed = true ∧ s.n ≠ 0 ∧ s.modeValid = true)

/-- An attached slot is slot IN, and the ring is not full (10_state.md R31, 42_capture.md R158). -/
def State.AttachedOk (s : State) : Prop :=
  ∀ i, s.attached = some i → i = s.inCur ∧ (s.inCur + 1) % s.n ≠ s.outCur

/-- The reserved bits 31:2 of the status registers read as zero (10_state.md R22). -/
def State.StatusOk (s : State) : Prop := s.status0.toNat < 4 ∧ s.status1.toNat < 4

/-- A depth of 8 or 10 and no packed flag (30_encoding.md R106, R107). -/
def LegalFormat (fmt : Half) : Prop :=
  fmt.getLsbD 12 = false ∧ (fmt.toNat % 16 = 7 ∨ fmt.toNat % 16 = 9)

/-- Bytes per sample of a legal format: 1 at depth 8, 2 at depth 10 (20_memory.md R73). -/
def sampleBytes (fmt : Half) : Nat := if fmt.toNat % 16 = 7 then 1 else 2

/-- A recorded mode is one MODE accepts (42_capture.md R150). -/
def State.ModeOk (s : State) : Prop :=
  s.modeValid = true →
    LegalFormat s.modeFmt ∧ s.modeFmt.toNat < 2 ^ 13 ∧ 1 ≤ s.modeW.toNat ∧ 1 ≤ s.modeH.toNat ∧
    s.modeW.toNat * sampleBytes s.modeFmt ≤ s.modeBpl.toNat ∧
    s.modeBpl.toNat % s.params.lineAlign = 0 ∧ s.modeH.toNat * s.modeBpl.toNat < 2 ^ 32

/-- Every slot has the geometry of the mode and the address PA gives it; "size fixed at allocation"
(41_ring.md R130, 42_capture.md R150, R158). -/
def State.SlotsOk (s : State) : Prop :=
  (s.n ≠ 0 → s.modeValid = true) ∧
  ∀ (i : Nat) (d : Slot), s.slots[i]? = some d →
    s.params.pa.toList[i]? = some d.pa ∧ d.size.toNat = s.modeH.toNat * s.modeBpl.toNat ∧
    d.w = s.modeW ∧ d.h = s.modeH ∧ d.bpl = s.modeBpl ∧ d.fmt = s.modeFmt

/-- min <= default <= max and min <= current <= max, once configured (10_state.md R38, 45_control.md R235). -/
def State.ControlsOk (s : State) : Prop :=
  ∀ k : Fin 16, s.ctrls[k].supported = true →
    s.ctrls[k].min.toInt ≤ s.ctrls[k].default.toInt ∧ s.ctrls[k].default.toInt ≤ s.ctrls[k].max.toInt ∧
    s.ctrls[k].min.toInt ≤ s.ctrls[k].current.toInt ∧ s.ctrls[k].current.toInt ≤ s.ctrls[k].max.toInt

/-- MEM is in canonical form and lists only addresses that exist (20_memory.md R70; log 6). -/
def State.MemoryOk (s : State) : Prop := Memory.wf s.mem ∧ ∀ c ∈ s.mem, c.1 < 2 ^ 32

/-- What every reachable state keeps. -/
structure State.Inv (s : State) : Prop where
  ring     : s.RingOk
  engine   : s.EngineOk
  attached : s.AttachedOk
  status   : s.StatusOk
  mode     : s.ModeOk
  slots    : s.SlotsOk
  controls : s.ControlsOk
  memory   : s.MemoryOk

/-! ### Launch premises on the open parameters -/

/-- The launch premises in a state: legal alignments, and R74 for the slots that exist. Without a pool R74 speaks of no
slot (20_memory.md R74; log 27). -/
def State.LaunchPremises (s : State) : Prop :=
  s.params.Legal ∧ s.params.Placed s.n (s.modeH.toNat * s.modeBpl.toNat)

/-- What R74 asks of PA before the next step: if it is an ALLOC, its pool is placed as R74 says. -/
def State.NextPoolPlaced (s : State) : Prop :=
  ∀ count, s.Runs (.alloc count) →
    s.params.Placed (min (max count.toNat 3) 20) (s.modeH.toNat * s.modeBpl.toNat)

/-- Every pixel buffer ends at or below 2^32: the one premise of 20_memory.md R74 on which a stop depends. -/
def State.BuffersInSpace (s : State) : Prop :=
  ∀ d ∈ s.slots, d.pa.toNat + d.size.toNat ≤ 2 ^ 32

/-! ### The ready queue -/

/-- The ready slots from OUT up to IN, oldest first, each with its index and its sequence number (10_state.md R27,
41_ring.md R140). -/
def State.readyQueue (s : State) : List (Nat × Word) :=
  (List.range s.readyCount).filterMap fun k =>
    s.slots[(s.outCur + k) % s.n]?.map fun d => ((s.outCur + k) % s.n, d.seq)

/-- The next step services a frame boundary: ISR while Streaming, with FE or PKT latched, past the spurious check
(RXA or PKT) of step 2 (42_capture.md R156, R157, R158). -/
def State.ServicesABoundary (s : State) : Prop :=
  s.Runs .isr ∧ s.session = .streaming ∧
    (s.status0.getLsbD 0 = true ∨ s.status0.getLsbD 1 = true) ∧
    (s.status1.getLsbD 1 = true ∨ s.status0.getLsbD 1 = true)

/-- The numbers reported by READY, and those of the ready slots, strictly increase and lie below SEQ
(42_capture.md R164). -/
def State.Numbered (s : State) : Prop :=
  s.readyLog.Pairwise (fun a b => a.toNat < b.toNat) ∧ (∀ q ∈ s.readyLog, q.toNat < s.seq.toNat) ∧
  s.readyQueue.Pairwise (fun a b => a.2.toNat < b.2.toNat) ∧ ∀ e ∈ s.readyQueue, e.2.toNat < s.seq.toNat

/-! ### Pixels, read off MEM -/

/-- The byte at an address, as a number. -/
def State.byteAt (s : State) (a : Nat) : Nat := (Memory.read s.mem a).toNat

/-- The address of the sample at (x, y) of a slot (20_memory.md R73). -/
def Slot.sampleAt (d : Slot) (x y : Nat) : Nat :=
  d.pa.toNat + y * d.bpl.toNat + x * sampleBytes d.fmt

/-- The sample at (x, y): one byte, or two with the low byte first (20_memory.md R73, R75). -/
def State.rawSample (s : State) (d : Slot) (x y : Nat) : Nat :=
  if d.fmt.toNat % 16 = 7 then s.byteAt (d.sampleAt x y)
  else s.byteAt (d.sampleAt x y) + 256 * s.byteAt (d.sampleAt x y + 1)

/-- The container at (x, y) lies in the address space and holds a sample (20_memory.md R73). -/
def State.ReadableAt (s : State) (d : Slot) (x y : Nat) : Prop :=
  d.sampleAt x y + sampleBytes d.fmt ≤ 2 ^ 32 ∧ s.rawSample d x y < 1024

/-- The colour id at (x, y), a number 0 to 3: the two bits of fmt from 4 + 2q, q = (x mod 2) + 2 (y mod 2)
(30_encoding.md R104, R105). -/
def colourId (fmt : Half) (x y : Nat) : Nat := fmt.toNat / 2 ^ (4 + 2 * (x % 2 + 2 * (y % 2))) % 4

/-- The samples an interior decode at (x, y) reads: its own and the four orthogonal ones, and at R and B the four
diagonal ones (43_pixel.md R181: "Only the sums the chosen case uses are read from memory"). -/
def Slot.samplesRead (d : Slot) (x y : Nat) : List (Nat × Nat) :=
  [(x, y), (x - 1, y), (x + 1, y), (x, y - 1), (x, y + 1)] ++
    if colourId d.fmt x y = 0 ∨ colourId d.fmt x y = 3 then
      [(x - 1, y - 1), (x + 1, y - 1), (x - 1, y + 1), (x + 1, y + 1)]
    else []

/-- Every container the decode at (x, y) reads lies in the address space and holds a sample. -/
def State.ReadableAround (s : State) (d : Slot) (x y : Nat) : Prop :=
  ∀ q ∈ d.samplesRead x y, s.ReadableAt d q.1 q.2

/-- Some container the decode at (x, y) reads holds 1024 or more (43_pixel.md R180 check 4). -/
def State.MalformedAround (s : State) (d : Slot) (x y : Nat) : Prop :=
  ∃ q ∈ d.samplesRead x y, 1024 ≤ s.rawSample d q.1 q.2

/-- An interior pixel: 1 <= x <= width-2 and 1 <= y <= height-2 (00_scope.md R16). -/
def Slot.Interior (d : Slot) (x y : Nat) : Prop :=
  1 ≤ x ∧ x + 2 ≤ d.w.toNat ∧ 1 ≤ y ∧ y + 2 ≤ d.h.toNat

/-- A pixel inside the frame on its border: x in 0, width-1 or y in 0, height-1 (43_pixel.md R183). -/
def Slot.OnBorder (d : Slot) (x y : Nat) : Prop :=
  x < d.w.toNat ∧ y < d.h.toNat ∧ (x = 0 ∨ x + 1 = d.w.toNat ∨ y = 0 ∨ y + 1 = d.h.toNat)

/-- Slot i exists with descriptor d and the task context may decode it (20_memory.md R79). -/
def State.MayDecode (s : State) (i : Byte) (d : Slot) : Prop :=
  s.slots[i.toNat]? = some d ∧
    (s.session = .disabled ∨ (s.inCur ≠ s.outCur ∧ i.toNat = s.outCur))

/-- The raw triple of an interior pixel (43_pixel.md R181, R184). -/
def State.rawTriple (s : State) (d : Slot) (x y : Nat) : Rgb :=
  let px := s.rawSample d
  let orth := (px (x - 1) y + px (x + 1) y + px x (y - 1) + px x (y + 1)) / 4
  let diag :=
    (px (x - 1) (y - 1) + px (x + 1) (y - 1) + px (x - 1) (y + 1) + px (x + 1) (y + 1)) / 4
  let hor := (px (x - 1) y + px (x + 1) y) / 2
  let ver := (px x (y - 1) + px x (y + 1)) / 2
  if colourId d.fmt x y = 0 then ⟨px x y, orth, diag⟩
  else if colourId d.fmt x y = 3 then ⟨diag, orth, px x y⟩
  else if colourId d.fmt x y = 1 then ⟨hor, px x y, ver⟩
  else ⟨ver, px x y, hor⟩

/-- The raw triple of any pixel of the frame: zero on the border (43_pixel.md R181, R183). -/
def State.frameTriple (s : State) (d : Slot) (x y : Nat) : Rgb :=
  if x = 0 ∨ x + 1 = d.w.toNat ∨ y = 0 ∨ y + 1 = d.h.toNat then ⟨0, 0, 0⟩ else s.rawTriple d x y

/-- A raw channel times its Q16 gain, shifted right by sampleDepth - targetDepth + 16, clamped to the target's
maximum (43_pixel.md R186). -/
def channelOut (v : Nat) (g : Word) (depth bits : Nat) : Nat :=
  min (v * g.toNat / 2 ^ (depth + 16 - bits)) (2 ^ bits - 1)

/-- Byte c of an RGB888 pixel: 0 red, 1 green, 2 blue (30_encoding.md R108). -/
def Slot.out888 (d : Slot) (p : Rgb) (c : Nat) : Nat :=
  let depth := d.fmt.toNat % 16 + 1
  if c = 0 then channelOut p.r d.gainR depth 8
  else if c = 1 then channelOut p.g d.gainG depth 8
  else channelOut p.b d.gainB depth 8

/-- The RGB565 word of a pixel: red in 15:11, green in 10:5, blue in 4:0 (30_encoding.md R109). -/
def Slot.out565 (d : Slot) (p : Rgb) : Nat :=
  let depth := d.fmt.toNat % 16 + 1
  channelOut p.r d.gainR depth 5 * 2048 + channelOut p.g d.gainG depth 6 * 32 +
    channelOut p.b d.gainB depth 5

/-- [dst, dst + len) lies below 2^32 and shares no address with a pixel buffer or the scratch region
(20_memory.md R87). -/
def State.DestinationFree (s : State) (dst len : Nat) : Prop :=
  dst + len ≤ 2 ^ 32 ∧ ∀ a, dst ≤ a → a < dst + len →
    (∀ d ∈ s.slots, a < d.pa.toNat ∨ d.pa.toNat + d.size.toNat ≤ a) ∧
    (a < s.params.scratchAddr.toNat ∨
      s.params.scratchAddr.toNat + s.modeH.toNat * s.modeBpl.toNat ≤ a)

/-! ### White balance -/

/-- The seed after k generator steps (44_whitebalance.md R211). -/
def seedAfter (seed : Word) : Nat → Word
  | 0 => seed
  | k + 1 => BitVec.ofNat 32 ((seedAfter seed k).toNat * 1103515245 + 12345)

/-- The coordinate drawn by generator step k + 1 for a dimension (44_whitebalance.md R211, R212). -/
def drawn (seed : Word) (k dim : Nat) : Nat :=
  1 + (seedAfter seed (k + 1)).toNat / 65536 % 32768 % (dim - 2)

/-- The pixel of sample j: x is drawn by step 2j + 1, y by step 2j + 2 (44_whitebalance.md R210, R212). -/
def Slot.sampledPixel (d : Slot) (j : Nat) : Nat × Nat :=
  (drawn d.seed (2 * j) d.w.toNat, drawn d.seed (2 * j + 1) d.h.toNat)

/-- The raw triple of sample j (44_whitebalance.md R213). -/
def State.sampledTriple (s : State) (d : Slot) (j : Nat) : Rgb :=
  s.rawTriple d (d.sampledPixel j).1 (d.sampledPixel j).2

/-- A channel's running total: the sum over the rounds of the largest value of the round's samples
(44_whitebalance.md R210, R213). -/
def State.channelTotal (s : State) (d : Slot) (samples rounds : Nat) (channel : Rgb → Nat) : Nat :=
  ∑ m ∈ Finset.range rounds,
    (Finset.range samples).sup fun n => channel (s.sampledTriple d (m * samples + n))

/-- The gain of a channel total among three (44_whitebalance.md R210 step 4, R214). -/
def gainOf (tr tg tb total : Nat) : Word :=
  BitVec.ofNat 32 (min (65536 * Nat.sqrt ((tr ^ 2 + tg ^ 2 + tb ^ 2) / 3) / total) (2 ^ 32 - 1))

end Sys2Proof.Machine
end

