-- ==== Sys2Proof/Certificates/Slice0/Obligations.lean ====
section
/-! DEFINITION. The statements for the provers, each from a rule of spec/. -/

open Sys2Proof Sys2Proof.Machine

/-! ### Encoding -/

/-- Decode and encode agree on every operation, every operand at every value (30_encoding.md R100, R103). -/
def Obligations.DecodeOfEncodeIsTheInstruction : Prop := ∀ i : Instr, decode (encode i) = .instr i

/-- Packets written out in 95_test_vectors.md decode to the operations their rows name (a sanity statement). -/
def Obligations.PacketsOfTheVectorsDecode : Prop :=
  decode ⟨0x00030010#32, 0, 0, 0, 0⟩ = .instr (.alloc 3#16) ∧
  decode ⟨0x00000113#32, 2, 0, 0, 0⟩ = .instr (.pub 1#8 2#32) ∧
  decode ⟨0x0E470023#32, 6, 6, 8, 0⟩ = .instr (.mode 0x0E47#16 6 6 8) ∧
  decode ⟨0x00000131#32, 3, 3, 0, 0⟩ = .instr (.pix888 1#8 3 3) ∧
  decode ⟨0x00000135#32, 3, 1, 0, 0⟩ = .instr (.wbal 1#8 3 1) ∧
  decode ⟨0x00000340#32, 0xFFFFFFF8#32, 7, 1, 0⟩ = .instr (.ksetup 3#8 0xFFFFFFF8#32 7 1 0) ∧
  decode ⟨0x00320342#32, 0, 0, 0, 0⟩ = .instr (.ksetp 3#8 50#16) ∧
  decode ⟨0xFFFF0014#32, 0, 0, 0, 0⟩ = .instr .tar ∧
  decode ⟨0x00000018#32, 0, 0, 0, 0⟩ = .unknownOp 0x18#8

/-- The decoder matches op alone: for each of the 23 codes it reads the operation R103 names, with the bits of the
packet R103 lists for it, to be presented on the port R103 lists; every other code is unknown (30_encoding.md R100,
R103, R110, R111). -/
def Obligations.DecoderMatchesOpAlone : Prop :=
  ∀ p : Packet,
    let w0 := p.w0.toNat
    let op := w0 % 256
    let sel := BitVec.ofNat 8 (w0 / 256)
    let imm := BitVec.ofNat 16 (w0 / 65536)
    (op = 0x10 → decode p = .instr (.alloc imm)) ∧
    (op = 0x11 → decode p = .instr .free) ∧
    (op = 0x12 → decode p = .instr .taf) ∧
    (op = 0x13 → decode p = .instr (.pub sel p.w1)) ∧
    (op = 0x14 → decode p = .instr .tar) ∧
    (op = 0x15 → decode p = .instr .rel) ∧
    (op = 0x16 → decode p = .instr (.desc sel)) ∧
    (op = 0x17 → decode p = .instr (.gains sel)) ∧
    (op = 0x20 → decode p = .instr (.start (w0 / 65536 % 2 == 1))) ∧
    (op = 0x21 → decode p = .instr .stop) ∧
    (op = 0x22 → decode p = .instr .isr) ∧
    (op = 0x23 → decode p = .instr (.mode imm p.w1 p.w2 p.w3)) ∧
    (op = 0x30 → decode p = .instr (.getpix sel p.w1 p.w2)) ∧
    (op = 0x31 → decode p = .instr (.pix888 sel p.w1 p.w2)) ∧
    (op = 0x32 → decode p = .instr (.pix565 sel p.w1 p.w2)) ∧
    (op = 0x33 → decode p = .instr (.conv888 sel p.w1)) ∧
    (op = 0x34 → decode p = .instr (.conv565 sel p.w1)) ∧
    (op = 0x35 → decode p = .instr (.wbal sel p.w1 p.w2)) ∧
    (op = 0x40 → decode p = .instr (.ksetup sel p.w1 p.w2 p.w3 p.w4)) ∧
    (op = 0x41 → decode p = .instr (.kset sel p.w1)) ∧
    (op = 0x42 → decode p = .instr (.ksetp sel imm)) ∧
    (op = 0x43 → decode p = .instr (.kget sel)) ∧
    (op = 0x44 → decode p = .instr (.kinfo sel)) ∧
    (∀ i, decode p = .instr i → i.port = if op = 0x12 ∨ op = 0x13 ∨ op = 0x22 then .interrupt else .task) ∧
    (∀ i, decode p = .instr i → i.opcode = p.op) ∧
    ((∃ i, decode p = .instr i) ↔
      p.op.toNat ∈ [0x10, 0x11, 0x12, 0x13, 0x14, 0x15, 0x16, 0x17, 0x20, 0x21, 0x22, 0x23, 0x30, 0x31,
        0x32, 0x33, 0x34, 0x35, 0x40, 0x41, 0x42, 0x43, 0x44]) ∧
    ((∀ i, decode p ≠ .instr i) → decode p = .unknownOp p.op)

/-- Each operation reads the fields R103 lists for it and no other: what it decodes to carries them, and two
packets that agree on op and on those fields decode alike (30_encoding.md R100, R103). -/
def Obligations.DecodingReadsExactlyTheUsedFields : Prop :=
  ∀ p q : Packet,
    let sel := [0x13, 0x16, 0x17, 0x30, 0x31, 0x32, 0x33, 0x34, 0x35, 0x40, 0x41, 0x42, 0x43, 0x44]
    let imm := [0x10, 0x23, 0x42]
    let a0 := [0x13, 0x23, 0x30, 0x31, 0x32, 0x33, 0x34, 0x35, 0x40, 0x41]
    let a1 := [0x23, 0x30, 0x31, 0x32, 0x35, 0x40]
    let a2 := [0x23, 0x40]
    let a3 := [0x40]
    let op := p.op.toNat
    (∀ i, decode p = .instr i →
      (op ∈ sel → (encode i).sel = p.sel) ∧ (op ∈ imm → (encode i).imm = p.imm) ∧
      (op = 0x20 → (encode i).imm.getLsbD 0 = p.imm.getLsbD 0) ∧
      (op ∈ a0 → (encode i).w1 = p.w1) ∧ (op ∈ a1 → (encode i).w2 = p.w2) ∧
      (op ∈ a2 → (encode i).w3 = p.w3) ∧ (op ∈ a3 → (encode i).w4 = p.w4)) ∧
    (p.op = q.op → (op ∈ sel → p.sel = q.sel) → (op ∈ imm → p.imm = q.imm) →
      (op = 0x20 → p.imm.getLsbD 0 = q.imm.getLsbD 0) →
      (op ∈ a0 → p.w1 = q.w1) → (op ∈ a1 → p.w2 = q.w2) → (op ∈ a2 → p.w3 = q.w3) →
      (op ∈ a3 → p.w4 = q.w4) → decode p = decode q)

/-- An operation whose operands are ill-formed (a selector past every pool or bank, a setup that breaks min <=
default <= max) is answered ILLEGAL in every state of a pool of at most 20 slots, and changes nothing
(30_encoding.md R102, R111, 45_control.md R230; "ill-formed" is the model's word, log 26). -/
def Obligations.IllFormedOperandsAreRefused : Prop :=
  ∀ (i : Instr) (s : State), i.wf = false → s.n ≤ 20 → exec i s = .next (s.answering .illegal)

/-! ### Steps -/

/-- A step runs the decoded operation: when the next event is a packet on the port of the operation it decodes
to, the step is that operation's meaning on the state with the event taken; a word placed by withFetchWord is
such an event. -/
def Obligations.StepRunsTheDecodedInstruction : Prop :=
  (∀ (s : State) (p : Packet) (i : Instr) (rest : List Event),
    s.inputs = .packet i.port p :: rest → decode p = .instr i →
      step s = exec i { s with inputs := rest }) ∧
  (∀ (s : State) (w : Nat) (i : Instr), decodeTableWord 160 w = some i →
      step (s.withFetchWord 160 w) = exec i s)

/-- A packet whose op is none of the 23, or that comes on the other port, is answered ILLEGAL with result words
0, and changes nothing (30_encoding.md R111, 60_exceptions.md R256 checks 1 and 2). -/
def Obligations.UnknownOpOrWrongPortIsRefused : Prop :=
  ∀ (s : State) (port : Port) (p : Packet) (rest : List Event),
    s.inputs = .packet port p :: rest → (∀ i, decode p = .instr i → i.port ≠ port) →
      step s = .next ((s.taking rest).answering .illegal)

/-- The receiver steps that latch conditions, while Streaming: RX_FS, RX_ACTIVE, RX_FE, RX_EXTRA set exactly the
bits and the frame flag that 60_exceptions.md R258 lists. -/
def Obligations.ReceiverStepsLatchTheirConditions : Prop :=
  ∀ (s : State) (rest : List Event), s.session = .streaming →
    let t := s.taking rest
    (s.inputs = .rx .fs :: rest → s.frameActive = false →
      step s = .next { t with frameActive := true, status0 := s.status0 ||| 1#32, status1 := s.status1 ||| 1#32 }) ∧
    (s.inputs = .rx .active :: rest → s.frameActive = true →
      step s = .next { t with status0 := s.status0 ||| 1#32 }) ∧
    (∀ fe pkt, s.inputs = .rx (.fe fe pkt) :: rest → s.frameActive = true → (fe = true ∨ pkt = true) →
      step s = .next { t with frameActive := false
                              status0 := s.status0 ||| (if pkt then 3#32 else 1#32)
                              status1 := s.status1 ||| (if fe then 2#32 else 0#32) }) ∧
    (∀ rxa pkt fe, s.inputs = .rx (.extra rxa pkt fe) :: rest → s.frameActive = false →
      step s = .next { t with status0 := s.status0 ||| (if rxa then 1#32 else 0#32) ||| (if pkt then 2#32 else 0#32)
                              status1 := s.status1 ||| (if fe then 2#32 else 0#32) })

/-- RX_DATA(a, b) while a frame is active and DMA_START <= a < DMA_END stores the byte b at a, and nothing else
(20_memory.md R78). -/
def Obligations.ReceiverDataStoresOneByte : Prop :=
  ∀ (s : State) (a : Word) (b : Byte) (rest : List Event),
    s.inputs = .rx (.data a b) :: rest → s.session = .streaming → s.frameActive = true →
    s.dmaStart.toNat ≤ a.toNat → a.toNat < s.dmaEnd.toNat → s.MemoryOk →
    ∃ m, step s = .next { s.taking rest with mem := m } ∧
      Memory.read m a.toNat = b ∧ ∀ a', a' ≠ a.toNat → Memory.read m a' = Memory.read s.mem a'

/-- A receiver step that is not enabled changes nothing: any step while Disabled (42_capture.md R153), RX_FS or
RX_EXTRA during a frame, RX_DATA, RX_ACTIVE or RX_FE outside one, RX_FE of no condition, RX_DATA outside the DMA pair
(60_exceptions.md R258, 20_memory.md R78). That its event is dropped, that HOST-ENV changes only its own lines, and
that nothing changes with no event waiting, is the model's (log 1, 3, 14). -/
def Obligations.DisabledReceiverAndEnvironmentChangeNothing : Prop :=
  ∀ (s : State) (rest : List Event),
    (∀ r, s.inputs = .rx r :: rest → s.session = .disabled → step s = .next (s.taking rest)) ∧
    (∀ r, s.inputs = .rx r :: rest → s.frameActive = true →
      (r = .fs ∨ ∃ rxa pkt fe, r = .extra rxa pkt fe) → step s = .next (s.taking rest)) ∧
    (∀ r, s.inputs = .rx r :: rest → s.frameActive = false →
      (r = .active ∨ (∃ a b, r = .data a b) ∨ ∃ fe pkt, r = .fe fe pkt) → step s = .next (s.taking rest)) ∧
    (s.inputs = .rx (.fe false false) :: rest → step s = .next (s.taking rest)) ∧
    (∀ a b, s.inputs = .rx (.data a b) :: rest → (a.toNat < s.dmaStart.toNat ∨ s.dmaEnd.toNat ≤ a.toNat) →
      step s = .next (s.taking rest)) ∧
    (∀ d, s.inputs = .env d :: rest → step s = .next { s.taking rest with draws := d }) ∧
    (s.inputs = [] → step s = .next (s.taking []))

/-! ### Reset and the invariant -/

/-- What reset leaves, for every value of the parameters: the values 10_state.md R44 states; the interrupt line is
low and no receiver step is enabled (70_reset_and_hazards.md R291). -/
def Obligations.ResetLeavesTheStatedValues : Prop :=
  ∀ p : Params,
    let s := State.resetWith p
    s.session = .disabled ∧ s.armed = false ∧ s.cbEn = false ∧ s.status0 = 0#32 ∧ s.status1 = 0#32 ∧
    s.frameActive = false ∧ s.seq = 0#32 ∧ s.attached = none ∧ s.n = 0 ∧ s.inCur = 0 ∧ s.outCur = 0 ∧
    s.slots = [] ∧ s.modeValid = false ∧ (∀ k : Fin 16, s.ctrls[k].supported = false) ∧ s.readyLog = [] ∧
    s.irq = false ∧ (∀ r, rxEnabled r s = false) ∧ State.reset = State.resetWith Params.conventions

/-- The invariant holds right after reset, whatever the parameters. -/
def Obligations.ResetMeetsTheInvariant : Prop := State.reset.Inv ∧ ∀ p : Params, (State.resetWith p).Inv

/-- Every step of every agent keeps the invariant: cursors in range (10_state.md R26), nothing armed, latched or
attached while Disabled (42_capture.md R153), an attached slot is slot IN (10_state.md R31), reserved status bits
zero (R22), an accepted mode (42_capture.md R150), slots of the mode's geometry (41_ring.md R130), controls in range
(45_control.md R235), memory in canonical form. -/
def Obligations.EveryStepKeepsTheInvariant : Prop :=
  ∀ s s' : State, s.Inv → step s = .next s' → s'.Inv

/-- From a state of the invariant whose pixel buffers end at or below 2^32 no step stops: every packet and every event
has a next state (00_scope.md R13: every operation ends by returning a response). The launch premises of 20_memory.md
R74 give that bound, hold at reset, and are kept by every step whose ALLOC, if it is one, is placed as R74 says; so
they carry along a run (00_scope.md R9; log 27). -/
def Obligations.NoStepStopsUnderThePremise : Prop :=
  (∀ s : State, s.Inv →
    (s.BuffersInSpace → ∃ s', step s = .next s') ∧
    (s.LaunchPremises → s.BuffersInSpace) ∧
    (s.LaunchPremises → s.NextPoolPlaced → ∃ s', step s = .next s' ∧ s'.Inv ∧ s'.LaunchPremises)) ∧
  ∀ p : Params, p.Legal → (State.resetWith p).LaunchPremises

/-! ### Whole-machine rules -/

/-- At most N - 1 slots are ready or attached, and ring_try_free gives none exactly when N - 1 are ready
(41_ring.md R138, R141). -/
def Obligations.RingCapacityIsBounded : Prop :=
  ∀ s : State, s.Inv → s.n ≠ 0 →
    s.readyCount + (if s.attached = none then 0 else 1) ≤ s.n - 1 ∧
    (ringTryFree s = none ↔ s.readyCount = s.n - 1)

/-- Ownership moves only forward along free, dma, ready, application, free (a direct publish takes a free slot to the
queue), and from dma back to free only at STOP (10_state.md R31, 41_ring.md R133, 42_capture.md R153). -/
def Obligations.OwnershipMovesForward : Prop :=
  ∀ (s s' : State) (i : Nat), s.Inv → step s = .next s' → s'.n = s.n → i < s.n →
    s'.owner i = s.owner i ∨
    (s.owner i, s'.owner i) ∈
      [(Owner.free, Owner.dma), (.free, .ready), (.free, .application), (.dma, .ready),
       (.dma, .application), (.ready, .application), (.application, .free)] ∨
    (s.owner i = .dma ∧ s'.owner i = .free ∧ s.Runs .stop)

/-- SEQ is incremented by every serviced frame boundary, and by nothing else (10_state.md R34). A boundary stamps the
number on the attached slot and publishes it, or skips the number when none is attached; so without a direct PUB, and
until SEQ wraps, published numbers strictly increase (42_capture.md R158, R164). -/
def Obligations.SequenceCounterNumbersTheBoundaries : Prop :=
  ∀ s s' : State, step s = .next s' →
    (s.ServicesABoundary → s'.seq = s.seq + 1#32) ∧
    (¬ s.ServicesABoundary → s'.seq = s.seq) ∧
    (s.ServicesABoundary → s.attached = none → s'.readyQueue = s.readyQueue ∧ s'.readyLog = s.readyLog) ∧
    (∀ i, s.Inv → s.ServicesABoundary → s.attached = some i →
      s'.readyQueue = s.readyQueue ++ [(i, s.seq)] ∧
      s'.readyLog = if s.cbEn then s.readyLog ++ [s.seq] else s.readyLog) ∧
    (s.Inv → s.Numbered → (∀ slot q, ¬ s.Runs (.pub slot q)) → s.seq.toNat + 1 < 2 ^ 32 → s'.Numbered)

/-- The session goes from Disabled to Streaming by START, back by STOP, and no other way (42_capture.md R151,
10_state.md R32). -/
def Obligations.SessionChangesOnlyByStartAndStop : Prop :=
  ∀ s s' : State, step s = .next s' →
    s'.session = s.session ∨
    (s.session = .disabled ∧ s'.session = .streaming ∧ ∃ cb, s.Runs (.start cb)) ∨
    (s.session = .streaming ∧ s'.session = .disabled ∧ s.Runs .stop)

/-- The mode registers are written only by MODE, only while Disabled and with no pool (10_state.md R25,
42_capture.md R150). -/
def Obligations.ModeRegistersWrittenOnlyByMode : Prop :=
  ∀ s s' : State, step s = .next s' →
    (s'.modeW = s.modeW ∧ s'.modeH = s.modeH ∧ s'.modeBpl = s.modeBpl ∧ s'.modeFmt = s.modeFmt ∧
      s'.modeValid = s.modeValid) ∨
    (s.session = .disabled ∧ s.n = 0 ∧ ∃ fmt w h bpl, s.Runs (.mode fmt w h bpl))

/-- The DMA pair has two sources: the scratch region, selected by START or by a frame start that finds the ring full,
and the buffer of slot IN, selected by a frame start that finds it free (42_capture.md R160). -/
def Obligations.DmaPairHasTwoSources : Prop :=
  ∀ s s' : State, step s = .next s' →
    (s'.dmaStart = s.dmaStart ∧ s'.dmaEnd = s.dmaEnd) ∨
    (((∃ cb, s.Runs (.start cb)) ∨ (s.Runs .isr ∧ (s'.inCur + 1) % s'.n = s'.outCur)) ∧
      s'.dmaStart = s.params.scratchAddr ∧
      (s.params.scratchAddr.toNat + s.modeH.toNat * s.modeBpl.toNat < 2 ^ 32 →
        s'.dmaEnd.toNat = s.params.scratchAddr.toNat + s.modeH.toNat * s.modeBpl.toNat)) ∨
    (s.Runs .isr ∧ s'.attached = some s'.inCur ∧ ∃ d, s'.slots[s'.inCur]? = some d ∧ s'.dmaStart = d.pa ∧
      (d.pa.toNat + d.size.toNat < 2 ^ 32 → s'.dmaEnd.toNat = d.pa.toNat + d.size.toNat))

/-- What the interrupt context never writes: OUT, STATE, ARMED, CB_EN, the mode, N, the controls, memory, and of every
slot its buffer, gains and seed (60_exceptions.md R260). -/
def Obligations.InterruptContextLeavesTaskState : Prop :=
  ∀ (i : Instr) (s s' : State), i.port = .interrupt → exec i s = .next s' →
    s'.outCur = s.outCur ∧ s'.session = s.session ∧ s'.armed = s.armed ∧ s'.cbEn = s.cbEn ∧
    s'.modeW = s.modeW ∧ s'.modeH = s.modeH ∧ s'.modeBpl = s.modeBpl ∧ s'.modeFmt = s.modeFmt ∧
    s'.modeValid = s.modeValid ∧ s'.n = s.n ∧ s'.ctrls = s.ctrls ∧ s'.frameActive = s.frameActive ∧
    (∀ a, Memory.read s'.mem a = Memory.read s.mem a) ∧
    s'.params = s.params ∧ s'.draws = s.draws ∧ s'.inputs = s.inputs ∧
    ∀ (k : Nat) (d : Slot), s.slots[k]? = some d → ∃ d', s'.slots[k]? = some d' ∧
      d'.pa = d.pa ∧ d'.size = d.size ∧ d'.gainR = d.gainR ∧ d'.gainG = d.gainG ∧ d'.gainB = d.gainB ∧
      d'.seed = d.seed

/-- What the task context never writes: SEQ and the ready log; the engine's registers but by START and STOP; IN and the
stamps of the slots but by ALLOC and FREE (60_exceptions.md R260). -/
def Obligations.TaskContextLeavesInterruptState : Prop :=
  ∀ (i : Instr) (s s' : State), i.port = .task → exec i s = .next s' →
    s'.seq = s.seq ∧ s'.readyLog = s.readyLog ∧
    s'.params = s.params ∧ s'.draws = s.draws ∧ s'.inputs = s.inputs ∧
    (i ≠ .stop → (∀ cb, i ≠ .start cb) →
      s'.attached = s.attached ∧ s'.dmaStart = s.dmaStart ∧ s'.dmaEnd = s.dmaEnd ∧
      s'.status0 = s.status0 ∧ s'.status1 = s.status1 ∧ s'.frameActive = s.frameActive ∧
      s'.armed = s.armed ∧ s'.cbEn = s.cbEn) ∧
    (i ≠ .free → (∀ count, i ≠ .alloc count) →
      s'.inCur = s.inCur ∧ s'.n = s.n ∧
      ∀ (k : Nat) (d : Slot), s.slots[k]? = some d → ∃ d', s'.slots[k]? = some d' ∧
        d'.pa = d.pa ∧ d'.size = d.size ∧ d'.w = d.w ∧ d'.h = d.h ∧ d'.bpl = d.bpl ∧ d'.fmt = d.fmt ∧
        d'.seq = d.seq ∧ d'.ts = d.ts)

/-- A control changes only by an operation of the K family that names it; only KSETUP writes its bounds; a supported
control stays supported (45_control.md R234, R235). -/
def Obligations.ControlsChangeOnlyByTheirOwnOperations : Prop :=
  ∀ (s s' : State) (k : Fin 16), step s = .next s' →
    (s.ctrls[k].supported = true → s'.ctrls[k].supported = true) ∧
    (s'.ctrls[k] = s.ctrls[k] ∨ ∃ ctl : Byte, ctl.toNat = k ∧
      ((∃ mn mx st df, s.Runs (.ksetup ctl mn mx st df)) ∨
       (((∃ v, s.Runs (.kset ctl v)) ∨ ∃ p, s.Runs (.ksetp ctl p)) ∧
         s'.ctrls[k] = { s.ctrls[k] with current := s'.ctrls[k].current })))

/-- A slot's buffer address and size are "fixed at allocation": no step changes them while the pool lives
(10_state.md R28). -/
def Obligations.SlotBuffersAreFixedAtAllocation : Prop :=
  ∀ (s s' : State) (k : Nat) (d : Slot), step s = .next s' → s'.n = s.n → s.slots[k]? = some d →
    ∃ d', s'.slots[k]? = some d' ∧ d'.pa = d.pa ∧ d'.size = d.size

/-- Memory is written only by RX_DATA inside the DMA pair, and by a conversion inside its admitted destination
(20_memory.md R71, R78, R79, R87). -/
def Obligations.MemoryIsWrittenOnlyByReceiverAndConversions : Prop :=
  ∀ (s s' : State) (a : Nat), step s = .next s' → Memory.read s'.mem a ≠ Memory.read s.mem a →
    (∃ b w rest, s.inputs = .rx (.data w b) :: rest ∧ w.toNat = a ∧ s.session = .streaming ∧
      s.frameActive = true ∧ s.dmaStart.toNat ≤ a ∧ a < s.dmaEnd.toNat) ∨
    (∃ i dst d, s.Runs (.conv888 i dst) ∧ s.MayDecode i d ∧ dst.toNat ≤ a ∧
      a < dst.toNat + 3 * (d.w.toNat * d.h.toNat) ∧ s.DestinationFree dst.toNat (3 * (d.w.toNat * d.h.toNat))) ∨
    (∃ i dst d, s.Runs (.conv565 i dst) ∧ s.MayDecode i d ∧ dst.toNat ≤ a ∧
      a < dst.toNat + 2 * (d.w.toNat * d.h.toNat) ∧ s.DestinationFree dst.toNat (2 * (d.w.toNat * d.h.toNat)))

/-! ### The ring -/

/-- ALLOC while Disabled, with a mode and no pool, when the allocation succeeds: N is the count clamped to [3, 20],
every slot is as R130 writes it, the cursors are 0, and nothing else changes (41_ring.md R130; that the bytes of
memory stay as they were is the model's, log 7). -/
def Obligations.AllocCreatesThePool : Prop :=
  ∀ (s : State) (count : Half), s.session = .disabled → s.n = 0 → s.modeValid = true →
    s.draws.allocOk = true → s.modeH.toNat * s.modeBpl.toNat < 2 ^ 32 →
    let n := min (max count.toNat 3) 20
    ∃ pool, exec (.alloc count) s =
        .next (State.answering { s with slots := pool, inCur := 0, outCur := 0 } .ok (BitVec.ofNat 32 n)) ∧
      pool.length = n ∧
      ∀ (k : Nat) (hk : k < 20), k < n → pool[k]? = some
        { pa := s.params.pa[k], size := BitVec.ofNat 32 (s.modeH.toNat * s.modeBpl.toNat)
          w := s.modeW, h := s.modeH, bpl := s.modeBpl, fmt := s.modeFmt, seq := 0#32, ts := 0#32
          gainR := 65536#32, gainG := 65536#32, gainB := 65536#32, seed := s.params.seed0 }

/-- ALLOC is REJECTED while Streaming, with a pool, or before any MODE, and FATAL when the allocation fails; nothing
changes (41_ring.md R130). -/
def Obligations.AllocFailuresChangeNothing : Prop :=
  ∀ (s : State) (count : Half),
    (s.session = .streaming ∨ s.n ≠ 0 ∨ s.modeValid = false →
      exec (.alloc count) s = .next (s.answering .rejected)) ∧
    (s.session = .disabled → s.n = 0 → s.modeValid = true → s.draws.allocOk = false →
      exec (.alloc count) s = .next (s.answering .fatal))

/-- FREE: refused with no pool, REJECTED while Streaming, else the pool is gone (41_ring.md R131). -/
def Obligations.FreeTearsThePoolDown : Prop :=
  ∀ s : State,
    (s.n = 0 → exec .free s = .next (s.answering .illegal)) ∧
    (s.n ≠ 0 → s.session = .streaming → exec .free s = .next (s.answering .rejected)) ∧
    (s.n ≠ 0 → s.session = .disabled →
      exec .free s = .next (State.answering { s with slots := [], inCur := 0, outCur := 0 } .ok))

/-- TAF: refused with no pool or while Streaming; NONE when (IN + 1) mod N = OUT, else slot IN; no state changes
(41_ring.md R132, R138). -/
def Obligations.TafPeeksTheNextFreeSlot : Prop :=
  ∀ s : State, s.Inv →
    (s.n = 0 ∨ s.session = .streaming → exec .taf s = .next (s.answering .illegal)) ∧
    (s.n ≠ 0 → s.session = .disabled → (s.inCur + 1) % s.n = s.outCur →
      exec .taf s = .next (s.answering .none)) ∧
    (s.n ≠ 0 → s.session = .disabled → (s.inCur + 1) % s.n ≠ s.outCur →
      exec .taf s = .next (s.answering .ok (BitVec.ofNat 32 s.inCur)))

/-- PUB: slot IN of a ring that is not full gets the sequence number, IN moves on, READY is logged with CB_EN; any
other slot, a full ring, no pool or Streaming is refused (41_ring.md R133, R139). -/
def Obligations.PubPublishesSlotIn : Prop :=
  ∀ (s : State) (slot : Byte) (q : Word),
    (∀ d, s.session = .disabled → slot.toNat = s.inCur → s.slots[slot.toNat]? = some d →
      (s.inCur + 1) % s.n ≠ s.outCur →
      exec (.pub slot q) s = .next (State.answering
        { s with slots := s.slots.set s.inCur { d with seq := q }
                 inCur := (s.inCur + 1) % s.n
                 readyLog := if s.cbEn then s.readyLog ++ [q] else s.readyLog } .ok q)) ∧
    (s.n ≤ slot.toNat ∨ s.session = .streaming ∨ slot.toNat ≠ s.inCur ∨ (s.inCur + 1) % s.n = s.outCur →
      exec (.pub slot q) s = .next (s.answering .illegal))

/-- TAR: refused with no pool, NONE on an empty ring, else the head's index, sequence number, timestamp and format; no
state changes (41_ring.md R134). -/
def Obligations.TarPeeksTheHead : Prop :=
  ∀ s : State, s.Inv →
    (s.n = 0 → exec .tar s = .next (s.answering .illegal)) ∧
    (s.n ≠ 0 → s.inCur = s.outCur → exec .tar s = .next (s.answering .none)) ∧
    (∀ d, s.inCur ≠ s.outCur → s.slots[s.outCur]? = some d →
      exec .tar s = .next (s.answering .ok (BitVec.ofNat 32 s.outCur) d.seq d.ts (d.fmt.setWidth 32)))

/-- REL: refused with no pool or an empty ring, else OUT moves on and nothing else changes (41_ring.md R135). -/
def Obligations.RelReleasesTheHead : Prop :=
  ∀ s : State,
    (s.n = 0 ∨ s.inCur = s.outCur → exec .rel s = .next (s.answering .illegal)) ∧
    (s.n ≠ 0 → s.inCur ≠ s.outCur →
      exec .rel s = .next (State.answering { s with outCur := (s.outCur + 1) % s.n } .ok))

/-- DESC and GAINS read any existing slot in any state, change nothing, and refuse an invalid selector
(41_ring.md R136, R137). -/
def Obligations.DescAndGainsReadASlot : Prop :=
  ∀ (s : State) (slot : Byte),
    (∀ d, s.slots[slot.toNat]? = some d →
      exec (.desc slot) s =
        .next (s.answering .ok (d.w.setWidth 32) (d.h.setWidth 32) d.bpl (d.fmt.setWidth 32)) ∧
      exec (.gains slot) s = .next (s.answering .ok d.gainR d.gainG d.gainB d.seed)) ∧
    (s.n ≤ slot.toNat →
      exec (.desc slot) s = .next (s.answering .illegal) ∧
      exec (.gains slot) s = .next (s.answering .illegal))

/-- The ring is first in, first out: a step leaves the ready queue, appends slot IN to it (PUB with its operand, ISR
with SEQ), takes its head off (REL, and REL of a ring that is not empty always does), or empties it (FREE); TAR answers
its head (41_ring.md R134, R135, R139, R140). And the source's ring scenario from any empty ring of three slots,
wherever its cursors stand: two publishes succeed, the third TAF gives none, and after one REL it gives a slot again
(R142). -/
def Obligations.RingIsAFifoAndRunsTheScenario : Prop :=
  (∀ s s' : State, s.Inv → step s = .next s' →
    (s'.readyQueue = s.readyQueue ∨
      ((∃ slot q, s.Runs (.pub slot q) ∧ slot.toNat = s.inCur ∧
        s'.readyQueue = s.readyQueue ++ [(s.inCur, q)]) ∨
       (s.Runs .isr ∧ s'.readyQueue = s.readyQueue ++ [(s.inCur, s.seq)])) ∨
      (s.Runs .rel ∧ ∃ e, s.readyQueue = e :: s'.readyQueue) ∨
      (s.Runs .free ∧ s'.readyQueue = [])) ∧
    (s.Runs .rel → s'.readyQueue = s.readyQueue.tail)) ∧
  (∀ (s : State) (i : Nat) (q : Word) (rest : List (Nat × Word)), s.Inv → s.readyQueue = (i, q) :: rest →
    ∃ ts fmt, exec .tar s = .next (s.answering .ok (BitVec.ofNat 32 i) q ts fmt)) ∧
  ∀ (s : State) (a b : Byte) (q r : Word), s.Inv → s.session = .disabled → s.n = 3 → s.inCur = s.outCur →
    a.toNat = s.inCur → b.toNat = (s.inCur + 1) % 3 →
    ∃ s1 s2 s3 s4 s5, exec (.pub a q) s = .next s1 ∧ exec (.pub b r) s1 = .next s2 ∧
      exec .taf s2 = .next s3 ∧ exec .rel s3 = .next s4 ∧ exec .taf s4 = .next s5 ∧
      s3.resp = some ⟨.none, 0, 0, 0, 0⟩ ∧
      s5.resp = some ⟨.ok, BitVec.ofNat 32 ((s.inCur + 2) % 3), 0, 0, 0⟩ ∧
      ∃ s6, exec .tar s4 = .next s6 ∧
        ∃ x y, s6.resp = some ⟨.ok, BitVec.ofNat 32 b.toNat, r, x, y⟩

/-! ### The capture engine -/

/-- MODE records a mode that meets every condition of R150 and answers the buffer size; any other is REJECTED and
changes nothing (42_capture.md R150, 30_encoding.md R106). -/
def Obligations.ModeRecordsAnAcceptedMode : Prop :=
  ∀ (s : State) (fmt : Half) (w h bpl : Word),
    let accepted := s.session = .disabled ∧ s.n = 0 ∧ LegalFormat fmt ∧ fmt.toNat < 2 ^ 13 ∧
      1 ≤ w.toNat ∧ w.toNat ≤ 65535 ∧ 1 ≤ h.toNat ∧ h.toNat ≤ 65535 ∧
      w.toNat * sampleBytes fmt ≤ bpl.toNat ∧ bpl.toNat % s.params.lineAlign = 0 ∧
      h.toNat * bpl.toNat < 2 ^ 32
    (accepted →
      exec (.mode fmt w h bpl) s = .next (State.answering
        { s with modeW := BitVec.ofNat 16 w.toNat, modeH := BitVec.ofNat 16 h.toNat, modeBpl := bpl
                 modeFmt := fmt, modeValid := true } .ok (BitVec.ofNat 32 (h.toNat * bpl.toNat)))) ∧
    (¬ accepted → exec (.mode fmt w h bpl) s = .next (s.answering .rejected))

/-- START: REJECTED while Streaming or without a pool or a mode, FATAL when bring-up fails, else the session begins on
the scratch region with nothing latched or attached (42_capture.md R152). DMA_END is the exclusive end where 32 bits
hold it (the other case is free, log 11). -/
def Obligations.StartBeginsASession : Prop :=
  ∀ (s : State) (cb : Bool),
    (s.session = .streaming ∨ s.n = 0 ∨ s.modeValid = false →
      exec (.start cb) s = .next (s.answering .rejected)) ∧
    (s.session = .disabled → s.n ≠ 0 → s.modeValid = true → s.draws.bringupOk = false →
      exec (.start cb) s = .next (s.answering .fatal)) ∧
    (s.session = .disabled → s.n ≠ 0 → s.modeValid = true → s.draws.bringupOk = true →
      ∃ e : Word,
        (s.params.scratchAddr.toNat + s.modeH.toNat * s.modeBpl.toNat < 2 ^ 32 →
          e.toNat = s.params.scratchAddr.toNat + s.modeH.toNat * s.modeBpl.toNat) ∧
        exec (.start cb) s = .next (State.answering
          { s with dmaStart := s.params.scratchAddr, dmaEnd := e, attached := none, status0 := 0#32
                   status1 := 0#32, frameActive := false, cbEn := cb, armed := true
                   session := .streaming } .ok))

/-- STOP: REJECTED while Disabled, else the session ends with nothing armed, latched, attached or arriving; cursors,
SEQ, CB_EN and slots stay (42_capture.md R153). -/
def Obligations.StopEndsTheSession : Prop :=
  ∀ s : State,
    (s.session = .disabled → exec .stop s = .next (s.answering .rejected)) ∧
    (s.session = .streaming →
      exec .stop s = .next (State.answering
        { s with armed := false, session := .disabled, attached := none, status0 := 0#32
                 status1 := 0#32, frameActive := false } .ok))

/-- Writing v to a status register clears exactly the bits that are 1 in v and leaves the others
(10_state.md R23). -/
def Obligations.WriteBackClearsExactlyTheOnes : Prop :=
  ∀ (s : State) (v0 v1 : Word) (i : Nat),
    (s.writeBackStatus v0 v1).status0.getLsbD i = (s.status0.getLsbD i && !v0.getLsbD i) ∧
    (s.writeBackStatus v0 v1).status1.getLsbD i = (s.status1.getLsbD i && !v1.getLsbD i)

/-- ISR while Disabled, or with neither RXA nor PKT latched, clears both status registers and does nothing else; with
RXA alone it is serviced and does nothing else (42_capture.md R157, R163 e). -/
def Obligations.IsrSpuriousOrIdle : Prop :=
  ∀ s : State,
    (s.session = .disabled ∨ (s.status0.getLsbD 0 = false ∧ s.status0.getLsbD 1 = false) →
      exec .isr s = .next (State.answering { s with status0 := 0#32, status1 := 0#32 } .ok)) ∧
    (s.session = .streaming → s.status0.getLsbD 0 = true → s.status0.getLsbD 1 = false →
      s.status1.getLsbD 0 = false → s.status1.getLsbD 1 = false →
      exec .isr s = .next (State.answering { s with status0 := 0#32, status1 := 0#32 } .ok 1#32))

/-- ISR on a frame boundary without a frame start: an attached slot is stamped with SEQ and the mode and published; SEQ
increments either way (42_capture.md R158). -/
def Obligations.IsrEndsAFrame : Prop :=
  ∀ s : State, s.session = .streaming → (s.status0.getLsbD 0 = true ∨ s.status0.getLsbD 1 = true) →
    (s.status1.getLsbD 1 = true ∨ s.status0.getLsbD 1 = true) → s.status1.getLsbD 0 = false →
    (s.attached = none →
      exec .isr s = .next (State.answering
        { s with status0 := 0#32, status1 := 0#32, seq := s.seq + 1#32 } .ok 3#32)) ∧
    (∀ d, s.attached = some s.inCur → s.slots[s.inCur]? = some d → (s.inCur + 1) % s.n ≠ s.outCur →
      exec .isr s = .next (State.answering
        { s with
          status0 := 0#32
          status1 := 0#32
          slots := s.slots.set s.inCur
            { d with seq := s.seq, w := s.modeW, h := s.modeH, bpl := s.modeBpl, fmt := s.modeFmt }
          inCur := (s.inCur + 1) % s.n
          readyLog := if s.cbEn then s.readyLog ++ [s.seq] else s.readyLog
          attached := none
          seq := s.seq + 1#32 } .ok 7#32))

/-- ISR on a frame start without a boundary: an attached slot stays; a free slot IN is attached with the tick and the DMA
pair is set to its buffer; on a full ring the pair is set to the scratch region (42_capture.md R159). DMA_END is the
exclusive end where 32 bits hold it (the other case is free, log 11). -/
def Obligations.IsrStartsAFrame : Prop :=
  ∀ s : State, s.session = .streaming → s.status0.getLsbD 0 = true → s.status0.getLsbD 1 = false →
    s.status1.getLsbD 1 = false → s.status1.getLsbD 0 = true →
    let t := { s with status0 := 0#32, status1 := 0#32 }
    (∀ i, s.attached = some i → exec .isr s = .next (t.answering .ok 9#32)) ∧
    (∀ d, s.attached = none → s.slots[s.inCur]? = some d → (s.inCur + 1) % s.n ≠ s.outCur →
      ∃ e : Word,
        (d.pa.toNat + d.size.toNat < 2 ^ 32 → e.toNat = d.pa.toNat + d.size.toNat) ∧
        exec .isr s = .next (State.answering
          { t with slots := s.slots.set s.inCur { d with ts := s.draws.tick }, dmaStart := d.pa, dmaEnd := e
                   attached := some s.inCur } .ok 0x19#32)) ∧
    (s.attached = none → (s.inCur + 1) % s.n = s.outCur →
      ∃ e : Word,
        (s.params.scratchAddr.toNat + s.modeH.toNat * s.modeBpl.toNat < 2 ^ 32 →
          e.toNat = s.params.scratchAddr.toNat + s.modeH.toNat * s.modeBpl.toNat) ∧
        exec .isr s = .next (State.answering
          { t with dmaStart := s.params.scratchAddr, dmaEnd := e } .ok 0x29#32))

/-- A boundary and a frame start seen by one ISR leave the same state as the boundary seen by one ISR and the frame start
by the next (42_capture.md R161, 70_reset_and_hazards.md R297). -/
def Obligations.IsrOfBothIsTwoIsrs : Prop :=
  ∀ s t u : State, s.session = .streaming → (s.status0.getLsbD 0 = true ∨ s.status0.getLsbD 1 = true) →
    (s.status1.getLsbD 1 = true ∨ s.status0.getLsbD 1 = true) → s.status1.getLsbD 0 = true →
    exec .isr { s with status1 := s.status1 &&& ~~~1#32 } = .next t →
    exec .isr { t with status0 := 1#32, status1 := 1#32 } = .next u →
    ∃ v, exec .isr s = .next v ∧ { v with resp := none } = { u with resp := none }

/-- The flags words ISR can answer, and that it answers nothing but OK (42_capture.md R156, 60_exceptions.md R252,
95_test_vectors.md T2). -/
def Obligations.IsrFlagsAreTheElevenValues : Prop :=
  ∀ s t : State, exec .isr s = .next t →
    ∃ f : Word, t.resp = some ⟨.ok, f, 0, 0, 0⟩ ∧
      f.toNat ∈ [0x00, 0x01, 0x03, 0x07, 0x09, 0x19, 0x29, 0x1B, 0x2B, 0x1F, 0x2F]

/-! ### Pixels -/

/-- A border pixel of a decodable slot decodes to zero in all three forms, whatever memory and the gains hold; a frame
narrower or lower than 3 has only border pixels (43_pixel.md R183). -/
def Obligations.BorderPixelsAreZero : Prop :=
  ∀ (s : State) (i : Byte) (d : Slot) (x y : Word), s.MayDecode i d → LegalFormat d.fmt →
    (d.OnBorder x.toNat y.toNat →
      exec (.getpix i x y) s = .next (s.answering .ok) ∧ exec (.pix888 i x y) s = .next (s.answering .ok) ∧
      exec (.pix565 i x y) s = .next (s.answering .ok)) ∧
    (d.w.toNat < 3 ∨ d.h.toNat < 3 → x.toNat < d.w.toNat → y.toNat < d.h.toNat →
      d.OnBorder x.toNat y.toNat)

/-- GETPIX of an interior pixel answers the raw triple: the pixel's own sample in its own channel, truncated averages of
the named neighbours in the others; no state changes (43_pixel.md R181, R182, R184). -/
def Obligations.GetpixReconstructsTheTriple : Prop :=
  ∀ (s : State) (i : Byte) (d : Slot) (x y : Word), s.MayDecode i d → LegalFormat d.fmt →
    d.Interior x.toNat y.toNat → s.ReadableAround d x.toNat y.toNat →
    let p := s.rawTriple d x.toNat y.toNat
    exec (.getpix i x y) s =
      .next (s.answering .ok (BitVec.ofNat 32 p.r) (BitVec.ofNat 32 p.g) (BitVec.ofNat 32 p.b))

/-- PIX888 and PIX565 of an interior pixel answer the triple after gain, shift and clamp, packed red, green, blue for
RGB565; no state changes (43_pixel.md R186, R187, R188, 30_encoding.md R109). -/
def Obligations.PixelsAreScaledAndPacked : Prop :=
  ∀ (s : State) (i : Byte) (d : Slot) (x y : Word), s.MayDecode i d → LegalFormat d.fmt →
    d.Interior x.toNat y.toNat → s.ReadableAround d x.toNat y.toNat →
    let p := s.rawTriple d x.toNat y.toNat
    exec (.pix888 i x y) s =
      .next (s.answering .ok (BitVec.ofNat 32 (d.out888 p 0)) (BitVec.ofNat 32 (d.out888 p 1))
        (BitVec.ofNat 32 (d.out888 p 2))) ∧
    exec (.pix565 i x y) s = .next (s.answering .ok (BitVec.ofNat 32 (d.out565 p)))

/-- In a buffer where every sample equals the constant of its colour, under any of the four Bayer tiles, every interior
pixel decodes to the three constants exactly (43_pixel.md R185, 30_encoding.md R106). -/
def Obligations.DemosaicIsExactOnConstantColours : Prop :=
  ∀ (s : State) (i : Byte) (d : Slot) (x y : Word) (r g b : Nat), s.MayDecode i d → LegalFormat d.fmt →
    d.fmt.toNat / 16 % 256 ∈ [0xE4, 0xB1, 0x4E, 0x1B] → r < 1024 → g < 1024 → b < 1024 →
    (∀ u v, u < d.w.toNat → v < d.h.toNat →
      d.sampleAt u v + sampleBytes d.fmt ≤ 2 ^ 32 ∧
      s.rawSample d u v =
        if colourId d.fmt u v = 0 then r else if colourId d.fmt u v = 3 then b else g) →
    d.Interior x.toNat y.toNat →
    exec (.getpix i x y) s =
      .next (s.answering .ok (BitVec.ofNat 32 r) (BitVec.ofNat 32 g) (BitVec.ofNat 32 b))

/-- The pixel operations refuse a slot that does not exist, that the task context may not decode, or whose format has no
sample layout; and reject a coordinate outside the frame (43_pixel.md R180, 20_memory.md R73, R79). -/
def Obligations.PixelOperationsRefuseAndReject : Prop :=
  ∀ (s : State) (i : Byte) (x y : Word),
    ((s.n ≤ i.toNat ∨ (s.session = .streaming ∧ (s.inCur = s.outCur ∨ i.toNat ≠ s.outCur)) ∨
        ∃ d, s.slots[i.toNat]? = some d ∧ ¬ LegalFormat d.fmt) →
      exec (.getpix i x y) s = .next (s.answering .illegal) ∧
      exec (.pix888 i x y) s = .next (s.answering .illegal) ∧
      exec (.pix565 i x y) s = .next (s.answering .illegal) ∧
      exec (.conv888 i x) s = .next (s.answering .illegal) ∧
      exec (.conv565 i x) s = .next (s.answering .illegal) ∧
      exec (.wbal i x y) s = .next (s.answering .illegal)) ∧
    (∀ d, s.MayDecode i d → LegalFormat d.fmt → d.w.toNat ≤ x.toNat ∨ d.h.toNat ≤ y.toNat →
      exec (.getpix i x y) s = .next (s.answering .rejected) ∧
      exec (.pix888 i x y) s = .next (s.answering .rejected) ∧
      exec (.pix565 i x y) s = .next (s.answering .rejected))

/-- A 10-bit container of 1024 or more refuses every decode that reads it, the pixel's own or a neighbour's, and the
conversions of its frame; a sampled pixel whose decode reads one refuses WBAL. Nothing is written, and gains and seed
stay (20_memory.md R73, 43_pixel.md R180 check 4, R181, R189, 44_whitebalance.md R210). -/
def Obligations.MalformedContainersAreRefused : Prop :=
  ∀ (s : State) (i : Byte) (d : Slot), s.MayDecode i d → LegalFormat d.fmt → d.fmt.toNat % 16 = 9 →
    (∀ u v, u < d.w.toNat → v < d.h.toNat → d.sampleAt u v + 2 ≤ 2 ^ 32) →
    (∀ x y dst : Word, d.Interior x.toNat y.toNat → s.MalformedAround d x.toNat y.toNat →
      exec (.getpix i x y) s = .next (s.answering .illegal) ∧
      exec (.pix888 i x y) s = .next (s.answering .illegal) ∧
      exec (.pix565 i x y) s = .next (s.answering .illegal) ∧
      exec (.conv888 i dst) s = .next (s.answering .illegal) ∧
      exec (.conv565 i dst) s = .next (s.answering .illegal)) ∧
    (∀ (samples rounds : Word) (j : Nat), 3 ≤ d.w.toNat → 3 ≤ d.h.toNat → samples.toNat ≤ 65535 →
      rounds.toNat ≤ 65535 → j < samples.toNat * rounds.toNat →
      s.MalformedAround d (d.sampledPixel j).1 (d.sampledPixel j).2 →
      exec (.wbal i samples rounds) s = .next (s.answering .illegal))

/-- CONV888 writes the three channel bytes of every pixel of the frame, R G B in raster order from dst, borders zero,
and leaves every other byte of memory as it was (43_pixel.md R189, 20_memory.md R87, 30_encoding.md R108). -/
def Obligations.Conv888WritesTheFrame : Prop :=
  ∀ (s : State) (i : Byte) (d : Slot) (dst : Word), s.MayDecode i d → LegalFormat d.fmt → s.MemoryOk →
    (∀ x y, d.Interior x y → s.ReadableAround d x y) →
    s.DestinationFree dst.toNat (3 * (d.w.toNat * d.h.toNat)) →
    ∃ m, exec (.conv888 i dst) s =
        .next (State.answering { s with mem := m } .ok (BitVec.ofNat 32 (3 * (d.w.toNat * d.h.toNat)))) ∧
      (∀ x y c, x < d.w.toNat → y < d.h.toNat → c < 3 →
        (Memory.read m (dst.toNat + 3 * (y * d.w.toNat + x) + c)).toNat =
          d.out888 (s.frameTriple d x y) c) ∧
      (∀ a, a < dst.toNat ∨ dst.toNat + 3 * (d.w.toNat * d.h.toNat) ≤ a →
        Memory.read m a = Memory.read s.mem a)

/-- CONV565 writes the RGB565 word of every pixel of the frame, low byte first, in raster order from dst, and leaves
every other byte of memory as it was (43_pixel.md R190, 20_memory.md R75, R87). -/
def Obligations.Conv565WritesTheFrame : Prop :=
  ∀ (s : State) (i : Byte) (d : Slot) (dst : Word), s.MayDecode i d → LegalFormat d.fmt → s.MemoryOk →
    (∀ x y, d.Interior x y → s.ReadableAround d x y) →
    s.DestinationFree dst.toNat (2 * (d.w.toNat * d.h.toNat)) →
    ∃ m, exec (.conv565 i dst) s =
        .next (State.answering { s with mem := m } .ok (BitVec.ofNat 32 (2 * (d.w.toNat * d.h.toNat)))) ∧
      (∀ x y, x < d.w.toNat → y < d.h.toNat →
        (Memory.read m (dst.toNat + 2 * (y * d.w.toNat + x))).toNat +
          256 * (Memory.read m (dst.toNat + 2 * (y * d.w.toNat + x) + 1)).toNat =
          d.out565 (s.frameTriple d x y)) ∧
      (∀ a, a < dst.toNat ∨ dst.toNat + 2 * (d.w.toNat * d.h.toNat) ≤ a →
        Memory.read m a = Memory.read s.mem a)

/-- A conversion whose destination passes 2^32 or meets a pixel buffer or the scratch region is refused and writes
nothing (20_memory.md R87). -/
def Obligations.ConversionsRefuseABadDestination : Prop :=
  ∀ (s : State) (i : Byte) (d : Slot) (dst : Word), s.MayDecode i d → LegalFormat d.fmt →
    (¬ s.DestinationFree dst.toNat (3 * (d.w.toNat * d.h.toNat)) →
      exec (.conv888 i dst) s = .next (s.answering .illegal)) ∧
    (¬ s.DestinationFree dst.toNat (2 * (d.w.toNat * d.h.toNat)) →
      exec (.conv565 i dst) s = .next (s.answering .illegal))

/-! ### White balance -/

/-- WBAL on a frame with an interior: the seed advances 2 N M generator steps; with the per-channel totals of the round
maxima of the sampled triples, a zero total leaves unit gains and answers GUARDED, else each gain is
min((65536 * isqrt(mean of squares)) div total, 2^32 - 1); nothing else changes (44_whitebalance.md R210 to R215; its
mapping, rounding and guard are the spec's defaults, log 15). -/
def Obligations.WbalEstimatesTheGains : Prop :=
  ∀ (s : State) (i : Byte) (d : Slot) (samples rounds : Word), s.MayDecode i d → LegalFormat d.fmt →
    3 ≤ d.w.toNat → 3 ≤ d.h.toNat → samples.toNat ≤ 65535 → rounds.toNat ≤ 65535 →
    (∀ x y, d.Interior x y → s.ReadableAround d x y) →
    let tr := s.channelTotal d samples.toNat rounds.toNat Rgb.r
    let tg := s.channelTotal d samples.toNat rounds.toNat Rgb.g
    let tb := s.channelTotal d samples.toNat rounds.toNat Rgb.b
    let seed := seedAfter d.seed (2 * samples.toNat * rounds.toNat)
    (tr = 0 ∨ tg = 0 ∨ tb = 0 →
      exec (.wbal i samples rounds) s = .next (State.answering
        { s with
          slots := s.slots.set i.toNat
            { d with gainR := 65536#32, gainG := 65536#32, gainB := 65536#32, seed := seed } }
        .guarded 65536#32 65536#32 65536#32)) ∧
    (tr ≠ 0 → tg ≠ 0 → tb ≠ 0 →
      exec (.wbal i samples rounds) s = .next (State.answering
        { s with
          slots := s.slots.set i.toNat
            { d with gainR := gainOf tr tg tb tr, gainG := gainOf tr tg tb tg, gainB := gainOf tr tg tb tb
                     seed := seed } }
        .ok (gainOf tr tg tb tr) (gainOf tr tg tb tg) (gainOf tr tg tb tb)))

/-- On a frame whose samples all have one value, WBAL leaves three unit gains: answered OK when the value is positive
and samples are drawn, GUARDED when it is zero (44_whitebalance.md R216). -/
def Obligations.WbalIsIdempotentOnUniformFrames : Prop :=
  ∀ (s : State) (i : Byte) (d : Slot) (samples rounds : Word) (v : Nat), s.MayDecode i d → LegalFormat d.fmt →
    3 ≤ d.w.toNat → 3 ≤ d.h.toNat → 1 ≤ samples.toNat → samples.toNat ≤ 65535 → 1 ≤ rounds.toNat →
    rounds.toNat ≤ 65535 → v < 1024 →
    (∀ x y, x < d.w.toNat → y < d.h.toNat →
      d.sampleAt x y + sampleBytes d.fmt ≤ 2 ^ 32 ∧ s.rawSample d x y = v) →
    ∃ seed, exec (.wbal i samples rounds) s = .next (State.answering
      { s with
        slots := s.slots.set i.toNat
          { d with gainR := 65536#32, gainG := 65536#32, gainB := 65536#32, seed := seed } }
      (if v = 0 then .guarded else .ok) 65536#32 65536#32 65536#32)

/-- WBAL is REJECTED, gains untouched, on a frame without interior or with N or M above 65535; with N or M zero it draws
nothing, resets the gains and answers GUARDED (44_whitebalance.md R218). -/
def Obligations.WbalLimitsOfItsArguments : Prop :=
  ∀ (s : State) (i : Byte) (d : Slot) (samples rounds : Word), s.MayDecode i d → LegalFormat d.fmt →
    (d.w.toNat < 3 ∨ d.h.toNat < 3 ∨ 65535 < samples.toNat ∨ 65535 < rounds.toNat →
      exec (.wbal i samples rounds) s = .next (s.answering .rejected)) ∧
    (3 ≤ d.w.toNat → 3 ≤ d.h.toNat → samples.toNat ≤ 65535 → rounds.toNat ≤ 65535 →
      samples.toNat = 0 ∨ rounds.toNat = 0 →
      exec (.wbal i samples rounds) s = .next (State.answering
        { s with
          slots := s.slots.set i.toNat
            { d with gainR := 65536#32, gainG := 65536#32, gainB := 65536#32 } }
        .guarded 65536#32 65536#32 65536#32))

/-- The generator: a wrapping 32-bit recurrence, the value bits 30:16 of the new seed, the same for two seeds that agree
on bits 30:0; the mapping lands in [1, dim - 2] (44_whitebalance.md R211, R212). -/
def Obligations.GeneratorAndMapping : Prop :=
  (∀ seed : Word,
    (wbRand seed).1.toNat = (seed.toNat * 1103515245 + 12345) % 2 ^ 32 ∧
    (wbRand seed).2 = (wbRand seed).1.toNat / 65536 % 32768 ∧
    (wbRand seed).2 = ((wbRand seed).1.extractLsb' 16 15).toNat) ∧
  (∀ a b : Word, a.toNat % 2 ^ 31 = b.toNat % 2 ^ 31 → (wbRand a).2 = (wbRand b).2) ∧
  (∀ v dim : Nat, 3 ≤ dim → wbMap v dim = 1 + v % (dim - 2) ∧ 1 ≤ wbMap v dim ∧ wbMap v dim ≤ dim - 2)

/-- isqrt(n) is the largest r with r * r <= n, for every n below 2^64 (00_scope.md R10; the bound covers every mean of
squares, 44_whitebalance.md R214). -/
def Obligations.IsqrtIsTheFloorRoot : Prop :=
  ∀ n : Nat, n < 2 ^ 64 → isqrt n * isqrt n ≤ n ∧ n < (isqrt n + 1) * (isqrt n + 1)

/-! ### Control registers -/

/-- KSETUP of a control of the bank, under min <= default <= max as signed numbers, writes all six fields, current
becoming default; otherwise it is refused (45_control.md R230). -/
def Obligations.KsetupConfiguresAControl : Prop :=
  ∀ (s : State) (ctl : Byte) (mn mx st df : Word),
    (∀ k : Fin 16, ctl.toNat = k → mn.toInt ≤ df.toInt → df.toInt ≤ mx.toInt →
      exec (.ksetup ctl mn mx st df) s = .next (State.answering
        { s with ctrls := s.ctrls.set k ⟨true, mn, mx, st, df, df⟩ } .ok)) ∧
    (16 ≤ ctl.toNat ∨ df.toInt < mn.toInt ∨ mx.toInt < df.toInt →
      exec (.ksetup ctl mn mx st df) s = .next (s.answering .illegal))

/-- KSET stores a value inside [min, max], signed, of a supported control, and rejects the rest, value unchanged;
KGET answers the current value of a supported control and rejects the rest; KINFO answers the bounds of a supported
control and NONE otherwise (45_control.md R231, R233, R234). -/
def Obligations.KsetKgetKinfoOnAControl : Prop :=
  ∀ (s : State) (ctl : Byte) (k : Fin 16) (v : Word), ctl.toNat = k →
    let c := s.ctrls[k]
    (c.supported = true → c.min.toInt ≤ v.toInt → v.toInt ≤ c.max.toInt →
      exec (.kset ctl v) s = .next (State.answering
        { s with ctrls := s.ctrls.set k { c with current := v } } .ok)) ∧
    (c.supported = false ∨ v.toInt < c.min.toInt ∨ c.max.toInt < v.toInt →
      exec (.kset ctl v) s = .next (s.answering .rejected)) ∧
    (c.supported = true → exec (.kget ctl) s = .next (s.answering .ok c.current) ∧
      exec (.kinfo ctl) s = .next (s.answering .ok c.min c.max c.step c.default)) ∧
    (c.supported = false → exec (.kget ctl) s = .next (s.answering .rejected) ∧
      exec (.kinfo ctl) s = .next (s.answering .none))

/-- KSETP stores min + ((max - min) * p) div 100, which lies in [min, max], is min at 0 and max at 100, and is the
response; a percent above 100 or an unsupported control is rejected (45_control.md R232). -/
def Obligations.KsetpMapsThePercent : Prop :=
  ∀ (s : State) (ctl : Byte) (k : Fin 16) (p : Half), ctl.toNat = k →
    let c := s.ctrls[k]
    (100 < p.toNat ∨ c.supported = false →
      exec (.ksetp ctl p) s = .next (s.answering .rejected)) ∧
    (p.toNat ≤ 100 → c.supported = true → c.min.toInt ≤ c.max.toInt →
      ∃ v : Word, v.toInt = c.min.toInt + (c.max.toInt - c.min.toInt) * p.toNat / 100 ∧
        c.min.toInt ≤ v.toInt ∧ v.toInt ≤ c.max.toInt ∧
        (p.toNat = 0 → v = c.min) ∧ (p.toNat = 100 → v = c.max) ∧
        exec (.ksetp ctl p) s = .next (State.answering
          { s with ctrls := s.ctrls.set k { c with current := v } } .ok v))
end

