-- ==== Sys2Proof/Laws/State.lean ====
section
/-! SUPPORT. One lemma per field per named update of State, so that no proof unfolds a record update. -/

namespace Sys2Proof.Machine

/-! ### State.withResp -/

@[simp] theorem State.withResp_session (s : State) (r : Option Response) : (s.withResp r).session = s.session := rfl
@[simp] theorem State.withResp_armed (s : State) (r : Option Response) : (s.withResp r).armed = s.armed := rfl
@[simp] theorem State.withResp_cbEn (s : State) (r : Option Response) : (s.withResp r).cbEn = s.cbEn := rfl
@[simp] theorem State.withResp_status0 (s : State) (r : Option Response) : (s.withResp r).status0 = s.status0 := rfl
@[simp] theorem State.withResp_status1 (s : State) (r : Option Response) : (s.withResp r).status1 = s.status1 := rfl
@[simp] theorem State.withResp_dmaStart (s : State) (r : Option Response) : (s.withResp r).dmaStart = s.dmaStart := rfl
@[simp] theorem State.withResp_dmaEnd (s : State) (r : Option Response) : (s.withResp r).dmaEnd = s.dmaEnd := rfl
@[simp] theorem State.withResp_seq (s : State) (r : Option Response) : (s.withResp r).seq = s.seq := rfl
@[simp] theorem State.withResp_attached (s : State) (r : Option Response) : (s.withResp r).attached = s.attached := rfl
@[simp] theorem State.withResp_slots (s : State) (r : Option Response) : (s.withResp r).slots = s.slots := rfl
@[simp] theorem State.withResp_inCur (s : State) (r : Option Response) : (s.withResp r).inCur = s.inCur := rfl
@[simp] theorem State.withResp_outCur (s : State) (r : Option Response) : (s.withResp r).outCur = s.outCur := rfl
@[simp] theorem State.withResp_modeW (s : State) (r : Option Response) : (s.withResp r).modeW = s.modeW := rfl
@[simp] theorem State.withResp_modeH (s : State) (r : Option Response) : (s.withResp r).modeH = s.modeH := rfl
@[simp] theorem State.withResp_modeBpl (s : State) (r : Option Response) : (s.withResp r).modeBpl = s.modeBpl := rfl
@[simp] theorem State.withResp_modeFmt (s : State) (r : Option Response) : (s.withResp r).modeFmt = s.modeFmt := rfl
@[simp] theorem State.withResp_modeValid (s : State) (r : Option Response) : (s.withResp r).modeValid = s.modeValid := rfl
@[simp] theorem State.withResp_frameActive (s : State) (r : Option Response) : (s.withResp r).frameActive = s.frameActive := rfl
@[simp] theorem State.withResp_ctrls (s : State) (r : Option Response) : (s.withResp r).ctrls = s.ctrls := rfl
@[simp] theorem State.withResp_readyLog (s : State) (r : Option Response) : (s.withResp r).readyLog = s.readyLog := rfl
@[simp] theorem State.withResp_mem (s : State) (r : Option Response) : (s.withResp r).mem = s.mem := rfl
@[simp] theorem State.withResp_params (s : State) (r : Option Response) : (s.withResp r).params = s.params := rfl
@[simp] theorem State.withResp_draws (s : State) (r : Option Response) : (s.withResp r).draws = s.draws := rfl
@[simp] theorem State.withResp_inputs (s : State) (r : Option Response) : (s.withResp r).inputs = s.inputs := rfl
@[simp] theorem State.withResp_resp (s : State) (r : Option Response) : (s.withResp r).resp = r := rfl
@[simp] theorem State.withResp_n (s : State) (r : Option Response) : (s.withResp r).n = s.n := rfl

/-! ### State.answering -/

@[simp] theorem State.answering_session (s : State) (st : Status) (r0 r1 r2 r3 : Word) : (s.answering st r0 r1 r2 r3).session = s.session := rfl
@[simp] theorem State.answering_armed (s : State) (st : Status) (r0 r1 r2 r3 : Word) : (s.answering st r0 r1 r2 r3).armed = s.armed := rfl
@[simp] theorem State.answering_cbEn (s : State) (st : Status) (r0 r1 r2 r3 : Word) : (s.answering st r0 r1 r2 r3).cbEn = s.cbEn := rfl
@[simp] theorem State.answering_status0 (s : State) (st : Status) (r0 r1 r2 r3 : Word) : (s.answering st r0 r1 r2 r3).status0 = s.status0 := rfl
@[simp] theorem State.answering_status1 (s : State) (st : Status) (r0 r1 r2 r3 : Word) : (s.answering st r0 r1 r2 r3).status1 = s.status1 := rfl
@[simp] theorem State.answering_dmaStart (s : State) (st : Status) (r0 r1 r2 r3 : Word) : (s.answering st r0 r1 r2 r3).dmaStart = s.dmaStart := rfl
@[simp] theorem State.answering_dmaEnd (s : State) (st : Status) (r0 r1 r2 r3 : Word) : (s.answering st r0 r1 r2 r3).dmaEnd = s.dmaEnd := rfl
@[simp] theorem State.answering_seq (s : State) (st : Status) (r0 r1 r2 r3 : Word) : (s.answering st r0 r1 r2 r3).seq = s.seq := rfl
@[simp] theorem State.answering_attached (s : State) (st : Status) (r0 r1 r2 r3 : Word) : (s.answering st r0 r1 r2 r3).attached = s.attached := rfl
@[simp] theorem State.answering_slots (s : State) (st : Status) (r0 r1 r2 r3 : Word) : (s.answering st r0 r1 r2 r3).slots = s.slots := rfl
@[simp] theorem State.answering_inCur (s : State) (st : Status) (r0 r1 r2 r3 : Word) : (s.answering st r0 r1 r2 r3).inCur = s.inCur := rfl
@[simp] theorem State.answering_outCur (s : State) (st : Status) (r0 r1 r2 r3 : Word) : (s.answering st r0 r1 r2 r3).outCur = s.outCur := rfl
@[simp] theorem State.answering_modeW (s : State) (st : Status) (r0 r1 r2 r3 : Word) : (s.answering st r0 r1 r2 r3).modeW = s.modeW := rfl
@[simp] theorem State.answering_modeH (s : State) (st : Status) (r0 r1 r2 r3 : Word) : (s.answering st r0 r1 r2 r3).modeH = s.modeH := rfl
@[simp] theorem State.answering_modeBpl (s : State) (st : Status) (r0 r1 r2 r3 : Word) : (s.answering st r0 r1 r2 r3).modeBpl = s.modeBpl := rfl
@[simp] theorem State.answering_modeFmt (s : State) (st : Status) (r0 r1 r2 r3 : Word) : (s.answering st r0 r1 r2 r3).modeFmt = s.modeFmt := rfl
@[simp] theorem State.answering_modeValid (s : State) (st : Status) (r0 r1 r2 r3 : Word) : (s.answering st r0 r1 r2 r3).modeValid = s.modeValid := rfl
@[simp] theorem State.answering_frameActive (s : State) (st : Status) (r0 r1 r2 r3 : Word) : (s.answering st r0 r1 r2 r3).frameActive = s.frameActive := rfl
@[simp] theorem State.answering_ctrls (s : State) (st : Status) (r0 r1 r2 r3 : Word) : (s.answering st r0 r1 r2 r3).ctrls = s.ctrls := rfl
@[simp] theorem State.answering_readyLog (s : State) (st : Status) (r0 r1 r2 r3 : Word) : (s.answering st r0 r1 r2 r3).readyLog = s.readyLog := rfl
@[simp] theorem State.answering_mem (s : State) (st : Status) (r0 r1 r2 r3 : Word) : (s.answering st r0 r1 r2 r3).mem = s.mem := rfl
@[simp] theorem State.answering_params (s : State) (st : Status) (r0 r1 r2 r3 : Word) : (s.answering st r0 r1 r2 r3).params = s.params := rfl
@[simp] theorem State.answering_draws (s : State) (st : Status) (r0 r1 r2 r3 : Word) : (s.answering st r0 r1 r2 r3).draws = s.draws := rfl
@[simp] theorem State.answering_inputs (s : State) (st : Status) (r0 r1 r2 r3 : Word) : (s.answering st r0 r1 r2 r3).inputs = s.inputs := rfl
@[simp] theorem State.answering_resp (s : State) (st : Status) (r0 r1 r2 r3 : Word) : (s.answering st r0 r1 r2 r3).resp = some ⟨st, r0, r1, r2, r3⟩ := rfl
@[simp] theorem State.answering_n (s : State) (st : Status) (r0 r1 r2 r3 : Word) : (s.answering st r0 r1 r2 r3).n = s.n := rfl

/-! ### State.setSlot -/

@[simp] theorem State.setSlot_session (s : State) (i : Nat) (d : Slot) : (s.setSlot i d).session = s.session := rfl
@[simp] theorem State.setSlot_armed (s : State) (i : Nat) (d : Slot) : (s.setSlot i d).armed = s.armed := rfl
@[simp] theorem State.setSlot_cbEn (s : State) (i : Nat) (d : Slot) : (s.setSlot i d).cbEn = s.cbEn := rfl
@[simp] theorem State.setSlot_status0 (s : State) (i : Nat) (d : Slot) : (s.setSlot i d).status0 = s.status0 := rfl
@[simp] theorem State.setSlot_status1 (s : State) (i : Nat) (d : Slot) : (s.setSlot i d).status1 = s.status1 := rfl
@[simp] theorem State.setSlot_dmaStart (s : State) (i : Nat) (d : Slot) : (s.setSlot i d).dmaStart = s.dmaStart := rfl
@[simp] theorem State.setSlot_dmaEnd (s : State) (i : Nat) (d : Slot) : (s.setSlot i d).dmaEnd = s.dmaEnd := rfl
@[simp] theorem State.setSlot_seq (s : State) (i : Nat) (d : Slot) : (s.setSlot i d).seq = s.seq := rfl
@[simp] theorem State.setSlot_attached (s : State) (i : Nat) (d : Slot) : (s.setSlot i d).attached = s.attached := rfl
@[simp] theorem State.setSlot_slots (s : State) (i : Nat) (d : Slot) : (s.setSlot i d).slots = s.slots.set i d := rfl
@[simp] theorem State.setSlot_inCur (s : State) (i : Nat) (d : Slot) : (s.setSlot i d).inCur = s.inCur := rfl
@[simp] theorem State.setSlot_outCur (s : State) (i : Nat) (d : Slot) : (s.setSlot i d).outCur = s.outCur := rfl
@[simp] theorem State.setSlot_modeW (s : State) (i : Nat) (d : Slot) : (s.setSlot i d).modeW = s.modeW := rfl
@[simp] theorem State.setSlot_modeH (s : State) (i : Nat) (d : Slot) : (s.setSlot i d).modeH = s.modeH := rfl
@[simp] theorem State.setSlot_modeBpl (s : State) (i : Nat) (d : Slot) : (s.setSlot i d).modeBpl = s.modeBpl := rfl
@[simp] theorem State.setSlot_modeFmt (s : State) (i : Nat) (d : Slot) : (s.setSlot i d).modeFmt = s.modeFmt := rfl
@[simp] theorem State.setSlot_modeValid (s : State) (i : Nat) (d : Slot) : (s.setSlot i d).modeValid = s.modeValid := rfl
@[simp] theorem State.setSlot_frameActive (s : State) (i : Nat) (d : Slot) : (s.setSlot i d).frameActive = s.frameActive := rfl
@[simp] theorem State.setSlot_ctrls (s : State) (i : Nat) (d : Slot) : (s.setSlot i d).ctrls = s.ctrls := rfl
@[simp] theorem State.setSlot_readyLog (s : State) (i : Nat) (d : Slot) : (s.setSlot i d).readyLog = s.readyLog := rfl
@[simp] theorem State.setSlot_mem (s : State) (i : Nat) (d : Slot) : (s.setSlot i d).mem = s.mem := rfl
@[simp] theorem State.setSlot_params (s : State) (i : Nat) (d : Slot) : (s.setSlot i d).params = s.params := rfl
@[simp] theorem State.setSlot_draws (s : State) (i : Nat) (d : Slot) : (s.setSlot i d).draws = s.draws := rfl
@[simp] theorem State.setSlot_inputs (s : State) (i : Nat) (d : Slot) : (s.setSlot i d).inputs = s.inputs := rfl
@[simp] theorem State.setSlot_resp (s : State) (i : Nat) (d : Slot) : (s.setSlot i d).resp = s.resp := rfl
@[simp] theorem State.setSlot_n (s : State) (i : Nat) (d : Slot) : (s.setSlot i d).n = s.n := List.length_set

/-! ### State.setCtrl -/

@[simp] theorem State.setCtrl_session (s : State) (k : Fin 16) (c : Ctrl) : (s.setCtrl k c).session = s.session := rfl
@[simp] theorem State.setCtrl_armed (s : State) (k : Fin 16) (c : Ctrl) : (s.setCtrl k c).armed = s.armed := rfl
@[simp] theorem State.setCtrl_cbEn (s : State) (k : Fin 16) (c : Ctrl) : (s.setCtrl k c).cbEn = s.cbEn := rfl
@[simp] theorem State.setCtrl_status0 (s : State) (k : Fin 16) (c : Ctrl) : (s.setCtrl k c).status0 = s.status0 := rfl
@[simp] theorem State.setCtrl_status1 (s : State) (k : Fin 16) (c : Ctrl) : (s.setCtrl k c).status1 = s.status1 := rfl
@[simp] theorem State.setCtrl_dmaStart (s : State) (k : Fin 16) (c : Ctrl) : (s.setCtrl k c).dmaStart = s.dmaStart := rfl
@[simp] theorem State.setCtrl_dmaEnd (s : State) (k : Fin 16) (c : Ctrl) : (s.setCtrl k c).dmaEnd = s.dmaEnd := rfl
@[simp] theorem State.setCtrl_seq (s : State) (k : Fin 16) (c : Ctrl) : (s.setCtrl k c).seq = s.seq := rfl
@[simp] theorem State.setCtrl_attached (s : State) (k : Fin 16) (c : Ctrl) : (s.setCtrl k c).attached = s.attached := rfl
@[simp] theorem State.setCtrl_slots (s : State) (k : Fin 16) (c : Ctrl) : (s.setCtrl k c).slots = s.slots := rfl
@[simp] theorem State.setCtrl_inCur (s : State) (k : Fin 16) (c : Ctrl) : (s.setCtrl k c).inCur = s.inCur := rfl
@[simp] theorem State.setCtrl_outCur (s : State) (k : Fin 16) (c : Ctrl) : (s.setCtrl k c).outCur = s.outCur := rfl
@[simp] theorem State.setCtrl_modeW (s : State) (k : Fin 16) (c : Ctrl) : (s.setCtrl k c).modeW = s.modeW := rfl
@[simp] theorem State.setCtrl_modeH (s : State) (k : Fin 16) (c : Ctrl) : (s.setCtrl k c).modeH = s.modeH := rfl
@[simp] theorem State.setCtrl_modeBpl (s : State) (k : Fin 16) (c : Ctrl) : (s.setCtrl k c).modeBpl = s.modeBpl := rfl
@[simp] theorem State.setCtrl_modeFmt (s : State) (k : Fin 16) (c : Ctrl) : (s.setCtrl k c).modeFmt = s.modeFmt := rfl
@[simp] theorem State.setCtrl_modeValid (s : State) (k : Fin 16) (c : Ctrl) : (s.setCtrl k c).modeValid = s.modeValid := rfl
@[simp] theorem State.setCtrl_frameActive (s : State) (k : Fin 16) (c : Ctrl) : (s.setCtrl k c).frameActive = s.frameActive := rfl
@[simp] theorem State.setCtrl_ctrls (s : State) (k : Fin 16) (c : Ctrl) : (s.setCtrl k c).ctrls = s.ctrls.set k c := rfl
@[simp] theorem State.setCtrl_readyLog (s : State) (k : Fin 16) (c : Ctrl) : (s.setCtrl k c).readyLog = s.readyLog := rfl
@[simp] theorem State.setCtrl_mem (s : State) (k : Fin 16) (c : Ctrl) : (s.setCtrl k c).mem = s.mem := rfl
@[simp] theorem State.setCtrl_params (s : State) (k : Fin 16) (c : Ctrl) : (s.setCtrl k c).params = s.params := rfl
@[simp] theorem State.setCtrl_draws (s : State) (k : Fin 16) (c : Ctrl) : (s.setCtrl k c).draws = s.draws := rfl
@[simp] theorem State.setCtrl_inputs (s : State) (k : Fin 16) (c : Ctrl) : (s.setCtrl k c).inputs = s.inputs := rfl
@[simp] theorem State.setCtrl_resp (s : State) (k : Fin 16) (c : Ctrl) : (s.setCtrl k c).resp = s.resp := rfl
@[simp] theorem State.setCtrl_n (s : State) (k : Fin 16) (c : Ctrl) : (s.setCtrl k c).n = s.n := rfl

/-! ### State.setMem -/

@[simp] theorem State.setMem_session (s : State) (m : Memory) : (s.setMem m).session = s.session := rfl
@[simp] theorem State.setMem_armed (s : State) (m : Memory) : (s.setMem m).armed = s.armed := rfl
@[simp] theorem State.setMem_cbEn (s : State) (m : Memory) : (s.setMem m).cbEn = s.cbEn := rfl
@[simp] theorem State.setMem_status0 (s : State) (m : Memory) : (s.setMem m).status0 = s.status0 := rfl
@[simp] theorem State.setMem_status1 (s : State) (m : Memory) : (s.setMem m).status1 = s.status1 := rfl
@[simp] theorem State.setMem_dmaStart (s : State) (m : Memory) : (s.setMem m).dmaStart = s.dmaStart := rfl
@[simp] theorem State.setMem_dmaEnd (s : State) (m : Memory) : (s.setMem m).dmaEnd = s.dmaEnd := rfl
@[simp] theorem State.setMem_seq (s : State) (m : Memory) : (s.setMem m).seq = s.seq := rfl
@[simp] theorem State.setMem_attached (s : State) (m : Memory) : (s.setMem m).attached = s.attached := rfl
@[simp] theorem State.setMem_slots (s : State) (m : Memory) : (s.setMem m).slots = s.slots := rfl
@[simp] theorem State.setMem_inCur (s : State) (m : Memory) : (s.setMem m).inCur = s.inCur := rfl
@[simp] theorem State.setMem_outCur (s : State) (m : Memory) : (s.setMem m).outCur = s.outCur := rfl
@[simp] theorem State.setMem_modeW (s : State) (m : Memory) : (s.setMem m).modeW = s.modeW := rfl
@[simp] theorem State.setMem_modeH (s : State) (m : Memory) : (s.setMem m).modeH = s.modeH := rfl
@[simp] theorem State.setMem_modeBpl (s : State) (m : Memory) : (s.setMem m).modeBpl = s.modeBpl := rfl
@[simp] theorem State.setMem_modeFmt (s : State) (m : Memory) : (s.setMem m).modeFmt = s.modeFmt := rfl
@[simp] theorem State.setMem_modeValid (s : State) (m : Memory) : (s.setMem m).modeValid = s.modeValid := rfl
@[simp] theorem State.setMem_frameActive (s : State) (m : Memory) : (s.setMem m).frameActive = s.frameActive := rfl
@[simp] theorem State.setMem_ctrls (s : State) (m : Memory) : (s.setMem m).ctrls = s.ctrls := rfl
@[simp] theorem State.setMem_readyLog (s : State) (m : Memory) : (s.setMem m).readyLog = s.readyLog := rfl
@[simp] theorem State.setMem_mem (s : State) (m : Memory) : (s.setMem m).mem = m := rfl
@[simp] theorem State.setMem_params (s : State) (m : Memory) : (s.setMem m).params = s.params := rfl
@[simp] theorem State.setMem_draws (s : State) (m : Memory) : (s.setMem m).draws = s.draws := rfl
@[simp] theorem State.setMem_inputs (s : State) (m : Memory) : (s.setMem m).inputs = s.inputs := rfl
@[simp] theorem State.setMem_resp (s : State) (m : Memory) : (s.setMem m).resp = s.resp := rfl
@[simp] theorem State.setMem_n (s : State) (m : Memory) : (s.setMem m).n = s.n := rfl

/-! ### State.setDma -/

@[simp] theorem State.setDma_session (s : State) (a : Word) (z : Nat) : (s.setDma a z).session = s.session := rfl
@[simp] theorem State.setDma_armed (s : State) (a : Word) (z : Nat) : (s.setDma a z).armed = s.armed := rfl
@[simp] theorem State.setDma_cbEn (s : State) (a : Word) (z : Nat) : (s.setDma a z).cbEn = s.cbEn := rfl
@[simp] theorem State.setDma_status0 (s : State) (a : Word) (z : Nat) : (s.setDma a z).status0 = s.status0 := rfl
@[simp] theorem State.setDma_status1 (s : State) (a : Word) (z : Nat) : (s.setDma a z).status1 = s.status1 := rfl
@[simp] theorem State.setDma_dmaStart (s : State) (a : Word) (z : Nat) : (s.setDma a z).dmaStart = a := rfl
@[simp] theorem State.setDma_dmaEnd (s : State) (a : Word) (z : Nat) : (s.setDma a z).dmaEnd = word32 (a.toNat + z) := rfl
@[simp] theorem State.setDma_seq (s : State) (a : Word) (z : Nat) : (s.setDma a z).seq = s.seq := rfl
@[simp] theorem State.setDma_attached (s : State) (a : Word) (z : Nat) : (s.setDma a z).attached = s.attached := rfl
@[simp] theorem State.setDma_slots (s : State) (a : Word) (z : Nat) : (s.setDma a z).slots = s.slots := rfl
@[simp] theorem State.setDma_inCur (s : State) (a : Word) (z : Nat) : (s.setDma a z).inCur = s.inCur := rfl
@[simp] theorem State.setDma_outCur (s : State) (a : Word) (z : Nat) : (s.setDma a z).outCur = s.outCur := rfl
@[simp] theorem State.setDma_modeW (s : State) (a : Word) (z : Nat) : (s.setDma a z).modeW = s.modeW := rfl
@[simp] theorem State.setDma_modeH (s : State) (a : Word) (z : Nat) : (s.setDma a z).modeH = s.modeH := rfl
@[simp] theorem State.setDma_modeBpl (s : State) (a : Word) (z : Nat) : (s.setDma a z).modeBpl = s.modeBpl := rfl
@[simp] theorem State.setDma_modeFmt (s : State) (a : Word) (z : Nat) : (s.setDma a z).modeFmt = s.modeFmt := rfl
@[simp] theorem State.setDma_modeValid (s : State) (a : Word) (z : Nat) : (s.setDma a z).modeValid = s.modeValid := rfl
@[simp] theorem State.setDma_frameActive (s : State) (a : Word) (z : Nat) : (s.setDma a z).frameActive = s.frameActive := rfl
@[simp] theorem State.setDma_ctrls (s : State) (a : Word) (z : Nat) : (s.setDma a z).ctrls = s.ctrls := rfl
@[simp] theorem State.setDma_readyLog (s : State) (a : Word) (z : Nat) : (s.setDma a z).readyLog = s.readyLog := rfl
@[simp] theorem State.setDma_mem (s : State) (a : Word) (z : Nat) : (s.setDma a z).mem = s.mem := rfl
@[simp] theorem State.setDma_params (s : State) (a : Word) (z : Nat) : (s.setDma a z).params = s.params := rfl
@[simp] theorem State.setDma_draws (s : State) (a : Word) (z : Nat) : (s.setDma a z).draws = s.draws := rfl
@[simp] theorem State.setDma_inputs (s : State) (a : Word) (z : Nat) : (s.setDma a z).inputs = s.inputs := rfl
@[simp] theorem State.setDma_resp (s : State) (a : Word) (z : Nat) : (s.setDma a z).resp = s.resp := rfl
@[simp] theorem State.setDma_n (s : State) (a : Word) (z : Nat) : (s.setDma a z).n = s.n := rfl

/-! ### State.setDmaScratch -/

@[simp] theorem State.setDmaScratch_session (s : State) : (s.setDmaScratch).session = s.session := rfl
@[simp] theorem State.setDmaScratch_armed (s : State) : (s.setDmaScratch).armed = s.armed := rfl
@[simp] theorem State.setDmaScratch_cbEn (s : State) : (s.setDmaScratch).cbEn = s.cbEn := rfl
@[simp] theorem State.setDmaScratch_status0 (s : State) : (s.setDmaScratch).status0 = s.status0 := rfl
@[simp] theorem State.setDmaScratch_status1 (s : State) : (s.setDmaScratch).status1 = s.status1 := rfl
@[simp] theorem State.setDmaScratch_dmaStart (s : State) : (s.setDmaScratch).dmaStart = s.params.scratchAddr := rfl
@[simp] theorem State.setDmaScratch_dmaEnd (s : State) : (s.setDmaScratch).dmaEnd = word32 (s.params.scratchAddr.toNat + s.modeSize) := rfl
@[simp] theorem State.setDmaScratch_seq (s : State) : (s.setDmaScratch).seq = s.seq := rfl
@[simp] theorem State.setDmaScratch_attached (s : State) : (s.setDmaScratch).attached = s.attached := rfl
@[simp] theorem State.setDmaScratch_slots (s : State) : (s.setDmaScratch).slots = s.slots := rfl
@[simp] theorem State.setDmaScratch_inCur (s : State) : (s.setDmaScratch).inCur = s.inCur := rfl
@[simp] theorem State.setDmaScratch_outCur (s : State) : (s.setDmaScratch).outCur = s.outCur := rfl
@[simp] theorem State.setDmaScratch_modeW (s : State) : (s.setDmaScratch).modeW = s.modeW := rfl
@[simp] theorem State.setDmaScratch_modeH (s : State) : (s.setDmaScratch).modeH = s.modeH := rfl
@[simp] theorem State.setDmaScratch_modeBpl (s : State) : (s.setDmaScratch).modeBpl = s.modeBpl := rfl
@[simp] theorem State.setDmaScratch_modeFmt (s : State) : (s.setDmaScratch).modeFmt = s.modeFmt := rfl
@[simp] theorem State.setDmaScratch_modeValid (s : State) : (s.setDmaScratch).modeValid = s.modeValid := rfl
@[simp] theorem State.setDmaScratch_frameActive (s : State) : (s.setDmaScratch).frameActive = s.frameActive := rfl
@[simp] theorem State.setDmaScratch_ctrls (s : State) : (s.setDmaScratch).ctrls = s.ctrls := rfl
@[simp] theorem State.setDmaScratch_readyLog (s : State) : (s.setDmaScratch).readyLog = s.readyLog := rfl
@[simp] theorem State.setDmaScratch_mem (s : State) : (s.setDmaScratch).mem = s.mem := rfl
@[simp] theorem State.setDmaScratch_params (s : State) : (s.setDmaScratch).params = s.params := rfl
@[simp] theorem State.setDmaScratch_draws (s : State) : (s.setDmaScratch).draws = s.draws := rfl
@[simp] theorem State.setDmaScratch_inputs (s : State) : (s.setDmaScratch).inputs = s.inputs := rfl
@[simp] theorem State.setDmaScratch_resp (s : State) : (s.setDmaScratch).resp = s.resp := rfl
@[simp] theorem State.setDmaScratch_n (s : State) : (s.setDmaScratch).n = s.n := rfl

/-! ### State.latch -/

@[simp] theorem State.latch_session (s : State) (b0 b1 : Word) : (s.latch b0 b1).session = s.session := rfl
@[simp] theorem State.latch_armed (s : State) (b0 b1 : Word) : (s.latch b0 b1).armed = s.armed := rfl
@[simp] theorem State.latch_cbEn (s : State) (b0 b1 : Word) : (s.latch b0 b1).cbEn = s.cbEn := rfl
@[simp] theorem State.latch_status0 (s : State) (b0 b1 : Word) : (s.latch b0 b1).status0 = s.status0 ||| b0 := rfl
@[simp] theorem State.latch_status1 (s : State) (b0 b1 : Word) : (s.latch b0 b1).status1 = s.status1 ||| b1 := rfl
@[simp] theorem State.latch_dmaStart (s : State) (b0 b1 : Word) : (s.latch b0 b1).dmaStart = s.dmaStart := rfl
@[simp] theorem State.latch_dmaEnd (s : State) (b0 b1 : Word) : (s.latch b0 b1).dmaEnd = s.dmaEnd := rfl
@[simp] theorem State.latch_seq (s : State) (b0 b1 : Word) : (s.latch b0 b1).seq = s.seq := rfl
@[simp] theorem State.latch_attached (s : State) (b0 b1 : Word) : (s.latch b0 b1).attached = s.attached := rfl
@[simp] theorem State.latch_slots (s : State) (b0 b1 : Word) : (s.latch b0 b1).slots = s.slots := rfl
@[simp] theorem State.latch_inCur (s : State) (b0 b1 : Word) : (s.latch b0 b1).inCur = s.inCur := rfl
@[simp] theorem State.latch_outCur (s : State) (b0 b1 : Word) : (s.latch b0 b1).outCur = s.outCur := rfl
@[simp] theorem State.latch_modeW (s : State) (b0 b1 : Word) : (s.latch b0 b1).modeW = s.modeW := rfl
@[simp] theorem State.latch_modeH (s : State) (b0 b1 : Word) : (s.latch b0 b1).modeH = s.modeH := rfl
@[simp] theorem State.latch_modeBpl (s : State) (b0 b1 : Word) : (s.latch b0 b1).modeBpl = s.modeBpl := rfl
@[simp] theorem State.latch_modeFmt (s : State) (b0 b1 : Word) : (s.latch b0 b1).modeFmt = s.modeFmt := rfl
@[simp] theorem State.latch_modeValid (s : State) (b0 b1 : Word) : (s.latch b0 b1).modeValid = s.modeValid := rfl
@[simp] theorem State.latch_frameActive (s : State) (b0 b1 : Word) : (s.latch b0 b1).frameActive = s.frameActive := rfl
@[simp] theorem State.latch_ctrls (s : State) (b0 b1 : Word) : (s.latch b0 b1).ctrls = s.ctrls := rfl
@[simp] theorem State.latch_readyLog (s : State) (b0 b1 : Word) : (s.latch b0 b1).readyLog = s.readyLog := rfl
@[simp] theorem State.latch_mem (s : State) (b0 b1 : Word) : (s.latch b0 b1).mem = s.mem := rfl
@[simp] theorem State.latch_params (s : State) (b0 b1 : Word) : (s.latch b0 b1).params = s.params := rfl
@[simp] theorem State.latch_draws (s : State) (b0 b1 : Word) : (s.latch b0 b1).draws = s.draws := rfl
@[simp] theorem State.latch_inputs (s : State) (b0 b1 : Word) : (s.latch b0 b1).inputs = s.inputs := rfl
@[simp] theorem State.latch_resp (s : State) (b0 b1 : Word) : (s.latch b0 b1).resp = s.resp := rfl
@[simp] theorem State.latch_n (s : State) (b0 b1 : Word) : (s.latch b0 b1).n = s.n := rfl

/-! ### State.writeBackStatus -/

@[simp] theorem State.writeBackStatus_session (s : State) (v0 v1 : Word) : (s.writeBackStatus v0 v1).session = s.session := rfl
@[simp] theorem State.writeBackStatus_armed (s : State) (v0 v1 : Word) : (s.writeBackStatus v0 v1).armed = s.armed := rfl
@[simp] theorem State.writeBackStatus_cbEn (s : State) (v0 v1 : Word) : (s.writeBackStatus v0 v1).cbEn = s.cbEn := rfl
@[simp] theorem State.writeBackStatus_status0 (s : State) (v0 v1 : Word) : (s.writeBackStatus v0 v1).status0 = writeOneToClear s.status0 v0 := rfl
@[simp] theorem State.writeBackStatus_status1 (s : State) (v0 v1 : Word) : (s.writeBackStatus v0 v1).status1 = writeOneToClear s.status1 v1 := rfl
@[simp] theorem State.writeBackStatus_dmaStart (s : State) (v0 v1 : Word) : (s.writeBackStatus v0 v1).dmaStart = s.dmaStart := rfl
@[simp] theorem State.writeBackStatus_dmaEnd (s : State) (v0 v1 : Word) : (s.writeBackStatus v0 v1).dmaEnd = s.dmaEnd := rfl
@[simp] theorem State.writeBackStatus_seq (s : State) (v0 v1 : Word) : (s.writeBackStatus v0 v1).seq = s.seq := rfl
@[simp] theorem State.writeBackStatus_attached (s : State) (v0 v1 : Word) : (s.writeBackStatus v0 v1).attached = s.attached := rfl
@[simp] theorem State.writeBackStatus_slots (s : State) (v0 v1 : Word) : (s.writeBackStatus v0 v1).slots = s.slots := rfl
@[simp] theorem State.writeBackStatus_inCur (s : State) (v0 v1 : Word) : (s.writeBackStatus v0 v1).inCur = s.inCur := rfl
@[simp] theorem State.writeBackStatus_outCur (s : State) (v0 v1 : Word) : (s.writeBackStatus v0 v1).outCur = s.outCur := rfl
@[simp] theorem State.writeBackStatus_modeW (s : State) (v0 v1 : Word) : (s.writeBackStatus v0 v1).modeW = s.modeW := rfl
@[simp] theorem State.writeBackStatus_modeH (s : State) (v0 v1 : Word) : (s.writeBackStatus v0 v1).modeH = s.modeH := rfl
@[simp] theorem State.writeBackStatus_modeBpl (s : State) (v0 v1 : Word) : (s.writeBackStatus v0 v1).modeBpl = s.modeBpl := rfl
@[simp] theorem State.writeBackStatus_modeFmt (s : State) (v0 v1 : Word) : (s.writeBackStatus v0 v1).modeFmt = s.modeFmt := rfl
@[simp] theorem State.writeBackStatus_modeValid (s : State) (v0 v1 : Word) : (s.writeBackStatus v0 v1).modeValid = s.modeValid := rfl
@[simp] theorem State.writeBackStatus_frameActive (s : State) (v0 v1 : Word) : (s.writeBackStatus v0 v1).frameActive = s.frameActive := rfl
@[simp] theorem State.writeBackStatus_ctrls (s : State) (v0 v1 : Word) : (s.writeBackStatus v0 v1).ctrls = s.ctrls := rfl
@[simp] theorem State.writeBackStatus_readyLog (s : State) (v0 v1 : Word) : (s.writeBackStatus v0 v1).readyLog = s.readyLog := rfl
@[simp] theorem State.writeBackStatus_mem (s : State) (v0 v1 : Word) : (s.writeBackStatus v0 v1).mem = s.mem := rfl
@[simp] theorem State.writeBackStatus_params (s : State) (v0 v1 : Word) : (s.writeBackStatus v0 v1).params = s.params := rfl
@[simp] theorem State.writeBackStatus_draws (s : State) (v0 v1 : Word) : (s.writeBackStatus v0 v1).draws = s.draws := rfl
@[simp] theorem State.writeBackStatus_inputs (s : State) (v0 v1 : Word) : (s.writeBackStatus v0 v1).inputs = s.inputs := rfl
@[simp] theorem State.writeBackStatus_resp (s : State) (v0 v1 : Word) : (s.writeBackStatus v0 v1).resp = s.resp := rfl
@[simp] theorem State.writeBackStatus_n (s : State) (v0 v1 : Word) : (s.writeBackStatus v0 v1).n = s.n := rfl

/-! ### State.publishNext -/

@[simp] theorem State.publishNext_session (s : State) (q : Word) : (s.publishNext q).session = s.session := rfl
@[simp] theorem State.publishNext_armed (s : State) (q : Word) : (s.publishNext q).armed = s.armed := rfl
@[simp] theorem State.publishNext_cbEn (s : State) (q : Word) : (s.publishNext q).cbEn = s.cbEn := rfl
@[simp] theorem State.publishNext_status0 (s : State) (q : Word) : (s.publishNext q).status0 = s.status0 := rfl
@[simp] theorem State.publishNext_status1 (s : State) (q : Word) : (s.publishNext q).status1 = s.status1 := rfl
@[simp] theorem State.publishNext_dmaStart (s : State) (q : Word) : (s.publishNext q).dmaStart = s.dmaStart := rfl
@[simp] theorem State.publishNext_dmaEnd (s : State) (q : Word) : (s.publishNext q).dmaEnd = s.dmaEnd := rfl
@[simp] theorem State.publishNext_seq (s : State) (q : Word) : (s.publishNext q).seq = s.seq := rfl
@[simp] theorem State.publishNext_attached (s : State) (q : Word) : (s.publishNext q).attached = s.attached := rfl
@[simp] theorem State.publishNext_slots (s : State) (q : Word) : (s.publishNext q).slots = s.slots := rfl
@[simp] theorem State.publishNext_inCur (s : State) (q : Word) : (s.publishNext q).inCur = (s.inCur + 1) % s.n := rfl
@[simp] theorem State.publishNext_outCur (s : State) (q : Word) : (s.publishNext q).outCur = s.outCur := rfl
@[simp] theorem State.publishNext_modeW (s : State) (q : Word) : (s.publishNext q).modeW = s.modeW := rfl
@[simp] theorem State.publishNext_modeH (s : State) (q : Word) : (s.publishNext q).modeH = s.modeH := rfl
@[simp] theorem State.publishNext_modeBpl (s : State) (q : Word) : (s.publishNext q).modeBpl = s.modeBpl := rfl
@[simp] theorem State.publishNext_modeFmt (s : State) (q : Word) : (s.publishNext q).modeFmt = s.modeFmt := rfl
@[simp] theorem State.publishNext_modeValid (s : State) (q : Word) : (s.publishNext q).modeValid = s.modeValid := rfl
@[simp] theorem State.publishNext_frameActive (s : State) (q : Word) : (s.publishNext q).frameActive = s.frameActive := rfl
@[simp] theorem State.publishNext_ctrls (s : State) (q : Word) : (s.publishNext q).ctrls = s.ctrls := rfl
@[simp] theorem State.publishNext_readyLog (s : State) (q : Word) : (s.publishNext q).readyLog = if s.cbEn then s.readyLog ++ [q] else s.readyLog := rfl
@[simp] theorem State.publishNext_mem (s : State) (q : Word) : (s.publishNext q).mem = s.mem := rfl
@[simp] theorem State.publishNext_params (s : State) (q : Word) : (s.publishNext q).params = s.params := rfl
@[simp] theorem State.publishNext_draws (s : State) (q : Word) : (s.publishNext q).draws = s.draws := rfl
@[simp] theorem State.publishNext_inputs (s : State) (q : Word) : (s.publishNext q).inputs = s.inputs := rfl
@[simp] theorem State.publishNext_resp (s : State) (q : Word) : (s.publishNext q).resp = s.resp := rfl
@[simp] theorem State.publishNext_n (s : State) (q : Word) : (s.publishNext q).n = s.n := rfl

/-! ### State.clearEngine -/

@[simp] theorem State.clearEngine_session (s : State) : (s.clearEngine).session = s.session := rfl
@[simp] theorem State.clearEngine_armed (s : State) : (s.clearEngine).armed = s.armed := rfl
@[simp] theorem State.clearEngine_cbEn (s : State) : (s.clearEngine).cbEn = s.cbEn := rfl
@[simp] theorem State.clearEngine_status0 (s : State) : (s.clearEngine).status0 = 0#32 := rfl
@[simp] theorem State.clearEngine_status1 (s : State) : (s.clearEngine).status1 = 0#32 := rfl
@[simp] theorem State.clearEngine_dmaStart (s : State) : (s.clearEngine).dmaStart = s.dmaStart := rfl
@[simp] theorem State.clearEngine_dmaEnd (s : State) : (s.clearEngine).dmaEnd = s.dmaEnd := rfl
@[simp] theorem State.clearEngine_seq (s : State) : (s.clearEngine).seq = s.seq := rfl
@[simp] theorem State.clearEngine_attached (s : State) : (s.clearEngine).attached = none := rfl
@[simp] theorem State.clearEngine_slots (s : State) : (s.clearEngine).slots = s.slots := rfl
@[simp] theorem State.clearEngine_inCur (s : State) : (s.clearEngine).inCur = s.inCur := rfl
@[simp] theorem State.clearEngine_outCur (s : State) : (s.clearEngine).outCur = s.outCur := rfl
@[simp] theorem State.clearEngine_modeW (s : State) : (s.clearEngine).modeW = s.modeW := rfl
@[simp] theorem State.clearEngine_modeH (s : State) : (s.clearEngine).modeH = s.modeH := rfl
@[simp] theorem State.clearEngine_modeBpl (s : State) : (s.clearEngine).modeBpl = s.modeBpl := rfl
@[simp] theorem State.clearEngine_modeFmt (s : State) : (s.clearEngine).modeFmt = s.modeFmt := rfl
@[simp] theorem State.clearEngine_modeValid (s : State) : (s.clearEngine).modeValid = s.modeValid := rfl
@[simp] theorem State.clearEngine_frameActive (s : State) : (s.clearEngine).frameActive = false := rfl
@[simp] theorem State.clearEngine_ctrls (s : State) : (s.clearEngine).ctrls = s.ctrls := rfl
@[simp] theorem State.clearEngine_readyLog (s : State) : (s.clearEngine).readyLog = s.readyLog := rfl
@[simp] theorem State.clearEngine_mem (s : State) : (s.clearEngine).mem = s.mem := rfl
@[simp] theorem State.clearEngine_params (s : State) : (s.clearEngine).params = s.params := rfl
@[simp] theorem State.clearEngine_draws (s : State) : (s.clearEngine).draws = s.draws := rfl
@[simp] theorem State.clearEngine_inputs (s : State) : (s.clearEngine).inputs = s.inputs := rfl
@[simp] theorem State.clearEngine_resp (s : State) : (s.clearEngine).resp = s.resp := rfl
@[simp] theorem State.clearEngine_n (s : State) : (s.clearEngine).n = s.n := rfl

end Sys2Proof.Machine
end

