-- ==== Sys2Proof/Laws/Ops.lean ====
section
/-! SUPPORT. What each shared operation can do, said once: memory, selectors, samples, the ring, the packet. -/

namespace Sys2Proof.Machine

/-! ### Memory: read after write, and the canonical form -/

/-- A byte below every listed address reads as blank. -/
theorem Memory.read_below (m : Memory) (a : Nat) (h : ∀ c ∈ m, a < c.1) :
    Memory.read m a = blankByte := by
  induction m with
  | nil => rfl
  | cons d m ih =>
    have hd : a < d.1 := h d (by simp)
    simp only [Memory.read]
    rw [if_neg (by omega)]
    exact ih fun c hc => h c (by simp [hc])

/-- A read at a written address gives the written byte, in a memory whose addresses rise. -/
theorem Memory.read_write_same (m : Memory) (a : Nat) (b : Byte)
    (h : m.Pairwise (fun c d => c.1 < d.1)) : Memory.read (Memory.write m a b) a = b := by
  induction m with
  | nil => by_cases hb : b = blankByte <;> simp [Memory.write, Memory.read, hb]
  | cons c m ih =>
    obtain ⟨k, v⟩ := c
    have hk : ∀ c ∈ m, k < c.1 := fun c hc => List.rel_of_pairwise_cons h hc
    have blank_read : a ≤ k → Memory.read m a = blankByte := fun hak =>
      Memory.read_below m a fun c hc => Nat.lt_of_le_of_lt hak (hk c hc)
    rcases Nat.lt_trichotomy k a with hlt | rfl | hgt
    · simp [Memory.write, Memory.read, hlt, Nat.ne_of_lt hlt, ih (List.Pairwise.of_cons h)]
    · by_cases hb : b = blankByte <;> simp [Memory.write, Memory.read, hb, blank_read]
    · by_cases hb : b = blankByte <;>
        simp [Memory.write, Memory.read, hb, Nat.not_lt.2 (Nat.le_of_lt hgt), Nat.ne_of_gt hgt,
          blank_read (Nat.le_of_lt hgt)]

/-- A read at another address is unchanged by a write. -/
theorem Memory.read_write_other (m : Memory) (a a' : Nat) (b : Byte) (ne : a' ≠ a) :
    Memory.read (Memory.write m a b) a' = Memory.read m a' := by
  induction m with
  | nil => by_cases hb : b = blankByte <;> simp [Memory.write, Memory.read, hb, ne.symm]
  | cons c m ih =>
    obtain ⟨k, v⟩ := c
    simp only [Memory.write]
    split
    · simp [Memory.read, ih]
    · split
      · subst_vars
        split <;> simp [Memory.read, ne.symm]
      · split <;> simp [Memory.read, ne.symm]

/-- The addresses a written memory lists are the old ones and the written one. -/
theorem Memory.mem_write {m : Memory} {a : Nat} {b : Byte} {c : Host.Cell}
    (h : c ∈ Memory.write m a b) : c ∈ m ∨ (c = (a, b) ∧ b ≠ blankByte) := by
  induction m with
  | nil =>
    by_cases hb : b = blankByte <;> simp_all [Memory.write]
  | cons d m ih =>
    obtain ⟨k, v⟩ := d
    simp only [Memory.write] at h
    split at h
    · rcases List.mem_cons.1 h with h | h
      · simp [h]
      · rcases ih h with h | h <;> simp [h]
    · split at h
      · split at h
        · simp [h]
        · rcases List.mem_cons.1 h with h | h <;> simp_all
      · split at h
        · simp_all
        · rcases List.mem_cons.1 h with h | h <;> simp_all

/-- A write keeps the canonical form. -/
theorem Memory.write_wf {m : Memory} (a : Nat) (b : Byte) (h : Memory.wf m) :
    Memory.wf (Memory.write m a b) := by
  refine ⟨?_, fun c hc => ?_⟩
  · obtain ⟨hp, -⟩ := h
    induction m with
    | nil => by_cases hb : b = blankByte <;> simp [Memory.write, hb]
    | cons d m ih =>
      obtain ⟨k, v⟩ := d
      have hk : ∀ c ∈ m, k < c.1 := fun c hc => List.rel_of_pairwise_cons hp hc
      have hm := List.Pairwise.of_cons hp
      simp only [Memory.write]
      split
      · rename_i hlt
        refine List.Pairwise.cons (fun c hc => ?_) (ih hm)
        rcases Memory.mem_write hc with hc | ⟨rfl, -⟩
        · exact hk c hc
        · exact hlt
      · split
        · subst_vars
          split
          · exact hm
          · exact List.Pairwise.cons (fun c hc => hk c hc) hm
        · split
          · exact hp
          · refine List.Pairwise.cons (fun c hc => ?_) hp
            rcases List.mem_cons.1 hc with rfl | hc
            · show a < k
              omega
            · have := hk c hc
              show a < c.1
              omega
  · rcases Memory.mem_write hc with hc | ⟨rfl, hb⟩
    · exact h.2 c hc
    · exact hb

/-- Storing a list of bytes keeps the canonical form. -/
theorem Memory.writeBytes_wf {m : Memory} (a : Nat) (bs : List Byte) (h : Memory.wf m) :
    Memory.wf (Memory.writeBytes m a bs) := by
  induction bs generalizing m a with
  | nil => exact h
  | cons b bs ih => exact ih (a + 1) (Memory.write_wf a b h)

/-- Every listed address of a stored list is old or in the region stored to. -/
theorem Memory.mem_writeBytes {m : Memory} {a : Nat} {bs : List Byte} {c : Host.Cell}
    (h : c ∈ Memory.writeBytes m a bs) : c ∈ m ∨ (a ≤ c.1 ∧ c.1 < a + bs.length) := by
  induction bs generalizing m a with
  | nil => exact .inl h
  | cons b bs ih =>
    rcases ih h with h | ⟨h1, h2⟩
    · rcases Memory.mem_write h with h | ⟨rfl, -⟩
      · exact .inl h
      · right; simp
    · right; simp only [List.length_cons]; omega

/-- A read outside the stored region is unchanged. -/
theorem Memory.read_writeBytes_outside (m : Memory) (a a' : Nat) (bs : List Byte)
    (h : a' < a ∨ a + bs.length ≤ a') :
    Memory.read (Memory.writeBytes m a bs) a' = Memory.read m a' := by
  induction bs generalizing m a with
  | nil => rfl
  | cons b bs ih =>
    simp only [List.length_cons] at h
    rw [Memory.writeBytes, ih _ _ (by omega), Memory.read_write_other _ _ _ _ (by omega)]

/-- A read inside the stored region gives the stored byte. -/
theorem Memory.read_writeBytes_inside (m : Memory) (a k : Nat) (bs : List Byte) (h : Memory.wf m)
    (hk : k < bs.length) : Memory.read (Memory.writeBytes m a bs) (a + k) = bs[k] := by
  induction bs generalizing m a k with
  | nil => simp at hk
  | cons b bs ih =>
    rw [Memory.writeBytes]
    cases k with
    | zero =>
      rw [Memory.read_writeBytes_outside _ _ _ _ (by omega)]
      exact Memory.read_write_same m a b h.1
    | succ k =>
      have := ih (Memory.write m a b) (a + 1) k (Memory.write_wf a b h) (by simpa using hk)
      rw [show a + (k + 1) = a + 1 + k by omega, this]
      rfl

/-! ### Responses -/

/-- A number that fits 32 bits is stored as it is. -/
theorem word32_of_lt {n : Nat} (h : n < 2 ^ 32) : word32 n = BitVec.ofNat 32 n := if_pos h

/-- A number that fits 32 bits is read back as it was stored. -/
theorem word32_toNat_of_lt {n : Nat} (h : n < 2 ^ 32) : (word32 n).toNat = n := by
  rw [word32_of_lt h, BitVec.toNat_ofNat, Nat.mod_eq_of_lt h]

/-- A response is the only change an answer makes. -/
@[simp] theorem respond_eq (s : State) (st : Status) (r0 r1 r2 r3 : Word) :
    respond s st r0 r1 r2 r3 = .next (s.answering st r0 r1 r2 r3) := rfl

/-- A refused packet changes nothing and answers ILLEGAL. -/
theorem refuse_eq (s : State) : refuse s = .next (s.answering .illegal) := rfl

/-- A rejected request changes nothing and answers REJECTED. -/
theorem reject_eq (s : State) : reject s = .next (s.answering .rejected) := rfl

/-! ### Selectors and pixel preconditions -/

/-- A slot operation that goes on was refused, or ran on the slot it names. -/
theorem withSlot_cases (s : State) (sel : Byte) (k : Slot → Out) :
    (s.slots[sel.toNat]? = none ∧ withSlot s sel k = refuse s) ∨
      ∃ d, s.slots[sel.toNat]? = some d ∧ withSlot s sel k = k d := by
  unfold withSlot
  cases h : s.slots[sel.toNat]? with
  | none => exact .inl ⟨rfl, rfl⟩
  | some d => exact .inr ⟨d, rfl, rfl⟩

/-- A control operation was refused, or ran on the control it names. -/
theorem withCtrl_cases (s : State) (sel : Byte) (k : Fin 16 → Ctrl → Out) :
    (16 ≤ sel.toNat ∧ withCtrl s sel k = refuse s) ∨
      ∃ h : sel.toNat < 16, withCtrl s sel k = k ⟨sel.toNat, h⟩ s.ctrls[sel.toNat] := by
  unfold withCtrl
  by_cases h : sel.toNat < 16
  · exact .inr ⟨h, by simp [h]⟩
  · exact .inl ⟨by omega, by simp [h]⟩

/-- A decode operation was refused, or ran on a decodable slot of a format that has a sample layout. -/
theorem withDecodable_cases (s : State) (sel : Byte) (k : Slot → Out) :
    withDecodable s sel k = refuse s ∨
      ∃ d, s.slots[sel.toNat]? = some d ∧ decodable s sel.toNat = true ∧
        (bytesPerSample d.fmt).isSome = true ∧ withDecodable s sel k = k d := by
  unfold withDecodable
  rcases withSlot_cases s sel fun d =>
      if decodable s sel.toNat && (bytesPerSample d.fmt).isSome then k d else refuse s with
    ⟨-, h⟩ | ⟨d, hd, h⟩
  · exact .inl h
  · by_cases hc : (decodable s sel.toNat && (bytesPerSample d.fmt).isSome) = true
    · rw [if_pos hc] at h
      rw [Bool.and_eq_true] at hc
      exact .inr ⟨d, hd, hc.1, hc.2, h⟩
    · rw [if_neg hc] at h
      exact .inl h

/-- A pixel operation was refused, rejected, or ran on a pixel inside the frame. -/
theorem withPixel_cases (s : State) (sel : Byte) (x y : Word) (k : Slot → Out) :
    withPixel s sel x y k = refuse s ∨ withPixel s sel x y k = reject s ∨
      ∃ d, s.slots[sel.toNat]? = some d ∧ decodable s sel.toNat = true ∧
        x.toNat < d.w.toNat ∧ y.toNat < d.h.toNat ∧ withPixel s sel x y k = k d := by
  unfold withPixel
  rcases withDecodable_cases s sel fun d =>
      if x.toNat < d.w.toNat ∧ y.toNat < d.h.toNat then k d else reject s with h | ⟨d, hd, hc, -, h⟩
  · exact .inl h
  · by_cases hx : x.toNat < d.w.toNat ∧ y.toNat < d.h.toNat
    · rw [if_pos hx] at h
      exact .inr (.inr ⟨d, hd, hc, hx.1, hx.2, h⟩)
    · rw [if_neg hx] at h
      exact .inr (.inl h)

/-- Reading samples goes on with their value, is refused, or has no address. -/
theorem onSamples_cases {α : Type} (s : State) (r : Except SampleStop α) (k : α → Out) :
    (∃ a, r = .ok a ∧ onSamples s r k = k a) ∨
      (r = .error .malformed ∧ onSamples s r k = refuse s) ∨
      (r = .error .noAddress ∧ onSamples s r k = .fault .noSuchAddress) := by
  match r with
  | .ok a => exact .inl ⟨a, rfl, rfl⟩
  | .error .malformed => exact .inr (.inl ⟨rfl, rfl⟩)
  | .error .noAddress => exact .inr (.inr ⟨rfl, rfl⟩)

/-! ### The ring -/

/-- ring_publish answers only for slot IN of a ring that is not full, and then moves IN. -/
theorem ringPublish_eq_some {s t : State} {i : Nat} {d : Slot} (h : ringPublish s i d = some t) :
    i = s.inCur ∧ s.ringFull = false ∧ t = (s.setSlot i d).publishNext d.seq := by
  unfold ringPublish at h
  split at h
  · rename_i hc
    exact ⟨hc.1, hc.2, (Option.some.inj h).symm⟩
  · cases h

/-- frame_end steps the sequence counter, and publishes exactly when a slot is attached. -/
theorem frameEnd_cases {s t : State} {g : Word} (h : frameEnd s = .ok (t, g)) :
    (s.attached = none ∧ t = { s with seq := s.seq + 1#32 } ∧ g = flagBoundary) ∨
      ∃ d, s.attached = some s.inCur ∧ s.slots[s.inCur]? = some d ∧ s.ringFull = false ∧
        t = { (s.setSlot s.inCur (s.stamped d)).publishNext s.seq with
              attached := none, seq := s.seq + 1#32 } ∧
        g = flagBoundary ||| flagPublished := by
  unfold frameEnd at h
  split at h
  · rename_i ha
    obtain ⟨rfl, rfl⟩ := Prod.mk.inj (Except.ok.inj h)
    exact .inl ⟨ha, rfl, rfl⟩
  · rename_i i ha
    split at h
    · cases h
    · rename_i d hd
      split at h
      · cases h
      · rename_i u hu
        obtain ⟨rfl, hfull, rfl⟩ := ringPublish_eq_some hu
        obtain ⟨rfl, rfl⟩ := Prod.mk.inj (Except.ok.inj h)
        exact .inr ⟨d, ha, hd, hfull, rfl, rfl⟩

/-- frame_start leaves an attached slot alone, attaches slot IN of a ring that is not full, or selects scratch. -/
theorem frameStart_cases {s t : State} {g : Word} (h : frameStart s = .ok (t, g)) :
    ((∃ i, s.attached = some i) ∧ t = s ∧ g = flagFrameStart) ∨
      (s.attached = none ∧ s.ringFull = true ∧ t = s.setDmaScratch ∧
        g = flagFrameStart ||| flagScratch) ∨
      ∃ d, s.attached = none ∧ s.ringFull = false ∧ s.slots[s.inCur]? = some d ∧
        t = { (s.setSlot s.inCur { d with ts := s.draws.tick }).setDma d.pa d.size.toNat with
              attached := some s.inCur } ∧
        g = flagFrameStart ||| flagAttached := by
  unfold frameStart at h
  split at h
  · rename_i i ha
    obtain ⟨rfl, rfl⟩ := Prod.mk.inj (Except.ok.inj h)
    exact .inl ⟨⟨i, ha⟩, rfl, rfl⟩
  · rename_i ha
    unfold ringTryFree at h
    by_cases hf : s.ringFull = true
    · rw [if_pos hf] at h
      obtain ⟨rfl, rfl⟩ := Prod.mk.inj (Except.ok.inj h)
      exact .inr (.inl ⟨ha, hf, rfl, rfl⟩)
    · rw [if_neg hf] at h
      simp only [Bool.not_eq_true] at hf
      cases hd : s.slots[s.inCur]? with
      | none => simp [hd] at h
      | some d =>
        simp only [hd] at h
        obtain ⟨rfl, rfl⟩ := Prod.mk.inj (Except.ok.inj h)
        exact .inr (.inr ⟨d, ha, hf, rfl, rfl, rfl⟩)

/-- A conditional step of the handler: skipped, or run with its flags added. -/
theorem isrStep_cases {c : Bool} {f : State → Except Fault (State × Word)} {s t : State}
    {flags g : Word} (h : isrStep c f s flags = .ok (t, g)) :
    (c = false ∧ t = s ∧ g = flags) ∨ ∃ k, c = true ∧ f s = .ok (t, k) ∧ g = flags ||| k := by
  unfold isrStep at h
  cases c with
  | false =>
    obtain ⟨rfl, rfl⟩ := Prod.mk.inj (Except.ok.inj h)
    exact .inl ⟨rfl, rfl, rfl⟩
  | true =>
    simp only [if_true] at h
    split at h
    · cases h
    · rename_i u k hu
      obtain ⟨rfl, rfl⟩ := Prod.mk.inj (Except.ok.inj h)
      exact .inr ⟨k, rfl, hu, rfl⟩

/-! ### Packets -/

/-- A packet is refused, or runs the operation it decodes to on that operation's own port. -/
theorem runPacket_cases (port : Port) (p : Packet) (s : State) :
    runPacket port p s = refuse s ∨
      ∃ i, decode p = .instr i ∧ i.port = port ∧ runPacket port p s = exec i s := by
  unfold runPacket
  cases h : decode p with
  | unknownOp op => exact .inl rfl
  | instr i =>
    by_cases hp : i.port = port
    · exact .inr ⟨i, rfl, hp, by simp [hp]⟩
    · exact .inl (by simp [hp])

end Sys2Proof.Machine
end

