-- ==== Sys2Proof/Laws/PerInstr.lean ====
section
/-! SUPPORT. Facts stated per operation: the encoded packet carries the operation's code in op. -/

namespace Sys2Proof.Laws

/-- The op field of a head word is the op it was made of. -/
theorem headWord_op (op sel : Byte) (imm : Half) : (headWord op sel imm).extractLsb' 0 8 = op := by
  ext i hi
  rw [BitVec.getElem_extractLsb']
  show (imm ++ sel ++ op).getLsbD (0 + i) = op[i]
  rw [BitVec.getLsbD_append]
  simp [hi]

/-- The op field of the encoded packet is the operation's code (30_encoding.md R103, R110). -/
def EncodedOpcode.Statement (i : Instr) : Prop := (encode i).op = i.opcode

theorem EncodedOpcode.alloc (count : Half) :
    EncodedOpcode.Statement (.alloc count) := headWord_op _ _ _

theorem EncodedOpcode.free :
    EncodedOpcode.Statement (.free) := headWord_op _ _ _

theorem EncodedOpcode.taf :
    EncodedOpcode.Statement (.taf) := headWord_op _ _ _

theorem EncodedOpcode.pub (slot : Byte) (seq : Word) :
    EncodedOpcode.Statement (.pub slot seq) := headWord_op _ _ _

theorem EncodedOpcode.tar :
    EncodedOpcode.Statement (.tar) := headWord_op _ _ _

theorem EncodedOpcode.rel :
    EncodedOpcode.Statement (.rel) := headWord_op _ _ _

theorem EncodedOpcode.desc (slot : Byte) :
    EncodedOpcode.Statement (.desc slot) := headWord_op _ _ _

theorem EncodedOpcode.gains (slot : Byte) :
    EncodedOpcode.Statement (.gains slot) := headWord_op _ _ _

theorem EncodedOpcode.start (callback : Bool) :
    EncodedOpcode.Statement (.start callback) := headWord_op _ _ _

theorem EncodedOpcode.stop :
    EncodedOpcode.Statement (.stop) := headWord_op _ _ _

theorem EncodedOpcode.isr :
    EncodedOpcode.Statement (.isr) := headWord_op _ _ _

theorem EncodedOpcode.mode (fmt : Half) (width : Word) (height : Word) (bytesPerLine : Word) :
    EncodedOpcode.Statement (.mode fmt width height bytesPerLine) := headWord_op _ _ _

theorem EncodedOpcode.getpix (slot : Byte) (x : Word) (y : Word) :
    EncodedOpcode.Statement (.getpix slot x y) := headWord_op _ _ _

theorem EncodedOpcode.pix888 (slot : Byte) (x : Word) (y : Word) :
    EncodedOpcode.Statement (.pix888 slot x y) := headWord_op _ _ _

theorem EncodedOpcode.pix565 (slot : Byte) (x : Word) (y : Word) :
    EncodedOpcode.Statement (.pix565 slot x y) := headWord_op _ _ _

theorem EncodedOpcode.conv888 (slot : Byte) (dst : Word) :
    EncodedOpcode.Statement (.conv888 slot dst) := headWord_op _ _ _

theorem EncodedOpcode.conv565 (slot : Byte) (dst : Word) :
    EncodedOpcode.Statement (.conv565 slot dst) := headWord_op _ _ _

theorem EncodedOpcode.wbal (slot : Byte) (samples : Word) (rounds : Word) :
    EncodedOpcode.Statement (.wbal slot samples rounds) := headWord_op _ _ _

theorem EncodedOpcode.ksetup (ctl : Byte) (min : Word) (max : Word) (step : Word) (default : Word) :
    EncodedOpcode.Statement (.ksetup ctl min max step default) := headWord_op _ _ _

theorem EncodedOpcode.kset (ctl : Byte) (value : Word) :
    EncodedOpcode.Statement (.kset ctl value) := headWord_op _ _ _

theorem EncodedOpcode.ksetp (ctl : Byte) (percent : Half) :
    EncodedOpcode.Statement (.ksetp ctl percent) := headWord_op _ _ _

theorem EncodedOpcode.kget (ctl : Byte) :
    EncodedOpcode.Statement (.kget ctl) := headWord_op _ _ _

theorem EncodedOpcode.kinfo (ctl : Byte) :
    EncodedOpcode.Statement (.kinfo ctl) := headWord_op _ _ _

end Sys2Proof.Laws
end

