-- ==== Sys2Proof/Laws/Pixel.lean ====
section
/-! SUPPORT. What sample reads, the pixel checks, conversions and a step can do, said once. -/

namespace Sys2Proof.Machine

/-- A read inside the address space gives its bytes, one past it nothing. -/
theorem memRead_cases (m : Memory) (a n : Nat) :
    (a + n ≤ 2 ^ 32 ∧ memRead m a n = some (Memory.readLE m a n)) ∨
      (2 ^ 32 < a + n ∧ memRead m a n = none) := by
  unfold memRead Config.addressSpace
  by_cases h : a + n ≤ 2 ^ 32
  · exact .inl ⟨h, if_pos h⟩
  · exact .inr ⟨by omega, if_neg h⟩

/-- A format has one byte per sample at depth 8, two at depth 10, and no layout otherwise. -/
theorem bytesPerSample_cases (fmt : Half) :
    (fmtPacked fmt = false ∧ fmtDepth fmt = 8 ∧ bytesPerSample fmt = some 1) ∨
      (fmtPacked fmt = false ∧ fmtDepth fmt = 10 ∧ bytesPerSample fmt = some 2) ∨
      bytesPerSample fmt = none := by
  unfold bytesPerSample
  cases fmtPacked fmt with
  | true => simp
  | false =>
    by_cases h8 : fmtDepth fmt = 8
    · simp [h8]
    · by_cases h10 : fmtDepth fmt = 10 <;> simp [h8, h10]

/-- The sample of a format with a layout: its value, malformed from 1024 on, or past the address space. -/
theorem sample_cases (m : Memory) (d : Slot) (x y bps : Nat) (h : bytesPerSample d.fmt = some bps) :
    (sampleAddress d bps x y + bps ≤ 2 ^ 32 ∧
      sample m d x y =
        if bps = 2 ∧ 1024 ≤ Memory.readLE m (sampleAddress d bps x y) bps then .error .malformed
        else .ok (Memory.readLE m (sampleAddress d bps x y) bps)) ∨
      (2 ^ 32 < sampleAddress d bps x y + bps ∧ sample m d x y = .error .noAddress) := by
  unfold sample
  rw [h]
  rcases memRead_cases m (sampleAddress d bps x y) bps with ⟨hb, hr⟩ | ⟨hb, hr⟩
  · exact .inl ⟨hb, by simp [hr]⟩
  · exact .inr ⟨hb, by simp [hr]⟩

/-- A border pixel is zero and reads nothing. -/
theorem demosaic_border (m : Memory) (d : Slot) (x y : Nat) (h : isBorder d x y = true) :
    demosaic m d x y = .ok Rgb.zero := by
  unfold demosaic
  rw [if_pos h]

/-- A decode reads samples at most one column and one row away. -/
theorem Slot.samplesRead_near {d : Slot} {x y : Nat} {q : Nat × Nat} (h : q ∈ d.samplesRead x y) :
    x ≤ q.1 + 1 ∧ q.1 ≤ x + 1 ∧ y ≤ q.2 + 1 ∧ q.2 ≤ y + 1 := by
  obtain ⟨u, v⟩ := q
  unfold Slot.samplesRead at h
  split at h <;> simp [Prod.mk.injEq] at h ⊢ <;> omega

/-- The samples an interior decode reads lie in the frame. -/
theorem Slot.samplesRead_in_frame {d : Slot} {x y : Nat} {q : Nat × Nat} (hi : d.Interior x y)
    (h : q ∈ d.samplesRead x y) : q.1 < d.w.toNat ∧ q.2 < d.h.toNat := by
  have := Slot.samplesRead_near h
  unfold Slot.Interior at hi
  omega

/-- A slot is decodable while Disabled, or as the head of a ring that is not empty. -/
theorem decodable_iff (s : State) (i : Nat) :
    decodable s i = true ↔
      i < s.n ∧ ((s.inCur ≠ s.outCur ∧ i = s.outCur) ∨ s.session = .disabled) := by
  simp [decodable, State.ringEmpty]

/-- Two regions are disjoint exactly when no address lies in both. -/
theorem disjointRegions_iff (a la b lb : Nat) :
    disjointRegions a la b lb = true ↔ ∀ k, a ≤ k → k < a + la → k < b ∨ b + lb ≤ k := by
  simp only [disjointRegions, Bool.or_eq_true, beq_iff_eq, decide_eq_true_eq]
  constructor
  · intro h k h1 h2
    omega
  · intro h
    by_cases hl : la = 0 ∨ lb = 0 ∨ a + la ≤ b ∨ b + lb ≤ a
    · omega
    · have := h (max a b) (by omega) (by omega)
      omega

/-- A destination is admitted exactly when it lies in the address space and meets no buffer and no scratch. -/
theorem destinationAdmitted_iff (s : State) (dst len : Nat) :
    destinationAdmitted s dst len = true ↔ s.DestinationFree dst len := by
  simp only [destinationAdmitted, Bool.and_eq_true, List.all_eq_true, disjointRegions_iff,
    State.DestinationFree, Config.addressSpace, State.modeSize]
  constructor
  · rintro ⟨⟨h1, h2⟩, h3⟩
    exact ⟨of_decide_eq_true h1, fun a ha ha' => ⟨fun d hd => h2 d hd a ha ha', h3 a ha ha'⟩⟩
  · rintro ⟨h1, h2⟩
    exact ⟨⟨decide_eq_true h1, fun d hd a ha ha' => (h2 a ha ha').1 d hd⟩, fun a ha ha' => (h2 a ha ha').2⟩

/-- A conversion that stops at no sample gives the bytes of each pixel's triple, in order. -/
theorem convertPixels_ok (m : Memory) (d : Slot) (bytesOf : Rgb → List Byte) (triple : Nat × Nat → Rgb)
    (ps : List (Nat × Nat)) (h : ∀ p ∈ ps, demosaic m d p.1 p.2 = .ok (triple p)) :
    convertPixels m d bytesOf ps = .ok (ps.flatMap fun p => bytesOf (triple p)) := by
  induction ps with
  | nil => rfl
  | cons p ps ih =>
    have hp := h p (by simp)
    have ht := ih fun q hq => h q (by simp [hq])
    unfold convertPixels
    simp only [hp, ht, List.flatMap_cons, bind, Except.bind, pure, Except.pure]

/-- The bytes of a conversion are as many as its pixels need. -/
theorem convertPixels_length {m : Memory} {d : Slot} {bytesOf : Rgb → List Byte} {k : Nat}
    (hk : ∀ p, (bytesOf p).length = k) {ps : List (Nat × Nat)} {bs : List Byte}
    (h : convertPixels m d bytesOf ps = .ok bs) : bs.length = k * ps.length := by
  induction ps generalizing bs with
  | nil =>
    cases h
    simp
  | cons p ps ih =>
    unfold convertPixels at h
    cases hd : demosaic m d p.1 p.2 with
    | error e => simp [hd, bind, Except.bind] at h
    | ok t =>
      cases hr : convertPixels m d bytesOf ps with
      | error e => simp [hd, hr, bind, Except.bind] at h
      | ok rest =>
        simp only [hd, hr, bind, Except.bind, pure, Except.pure, Except.ok.injEq] at h
        subst h
        rw [List.length_append, hk, ih hr, List.length_cons, Nat.mul_succ, Nat.add_comm]

/-- A frame has width times height pixels in raster order. -/
theorem raster_length (w h : Nat) : (raster w h).length = w * h := by
  simp [raster, List.length_flatMap, Nat.mul_comm]

/-- A pixel is in the raster exactly when it is in the frame. -/
theorem mem_raster {w h x y : Nat} : (x, y) ∈ raster w h ↔ x < w ∧ y < h := by
  simp [raster]
  exact and_comm

/-- A receiver event either runs its enabled step or changes nothing. -/
theorem runRx_cases (r : RxStep) (s : State) :
    (rxEnabled r s = true ∧ runRx r s = (rxEffect r s).withResp none) ∨
      (rxEnabled r s = false ∧ runRx r s = s.withResp none) := by
  unfold runRx
  cases rxEnabled r s <;> simp

/-- What a step can do: idle, run or refuse a packet, make a receiver step, or take the environment's lines. -/
theorem step_cases (s : State) :
    (s.inputs = [] ∧ step s = .next (s.withResp none)) ∨
      ∃ e rest, s.inputs = e :: rest ∧
        ((∃ port p, e = .packet port p ∧ step s = refuse { s with inputs := rest }) ∨
          (∃ p i, e = .packet i.port p ∧ decode p = .instr i ∧
            step s = exec i { s with inputs := rest }) ∨
          (∃ r, e = .rx r ∧ step s = .next (runRx r { s with inputs := rest })) ∨
          ∃ d, e = .env d ∧ step s = .next (runEnv d { s with inputs := rest })) := by
  unfold step runNext
  cases hs : s.inputs with
  | nil => exact .inl ⟨rfl, rfl⟩
  | cons e rest =>
    refine .inr ⟨e, rest, rfl, ?_⟩
    cases e with
    | packet port p =>
      rcases runPacket_cases port p { s with inputs := rest } with h | ⟨i, hd, rfl, h⟩
      · exact .inl ⟨port, p, rfl, h⟩
      · exact .inr (.inl ⟨p, i, rfl, hd, h⟩)
    | rx r => exact .inr (.inr (.inl ⟨r, rfl, rfl⟩))
    | env d => exact .inr (.inr (.inr ⟨d, rfl, rfl⟩))

end Sys2Proof.Machine
end

