-- ==== Sys2Proof/Machine/Numbers.lean ====
section
/-! DEFINITION. The numbers that label the registers in traces (10_state.md R42). No operation uses them. -/

namespace Sys2Proof.Machine

/-- The fields of a slot, in the order of 10_state.md R28's table. -/
inductive SlotField where
  | pa | size | w | h | bpl | fmt | seq | ts | gain0 | gain1 | gain2 | seed
  deriving DecidableEq, Repr

/-- The fields of a control, in the order of 10_state.md R42. -/
inductive CtrlField where
  | supported | min | max | step | default | current
  deriving DecidableEq, Repr

/-- The registers of the block, by name. -/
inductive Register where
  | state | armed | cbEn | status0 | status1 | dmaStart | dmaEnd | seq | attached | n | inCur | outCur
  | modeW | modeH | modeBpl | modeFmt | modeValid | frameActive
  | slot (i : Nat) (j : SlotField)
  | ctrl (k : Nat) (j : CtrlField)
  deriving DecidableEq, Repr

/-- j, the place of a slot's field (10_state.md R42). -/
def SlotField.place : SlotField → Nat
  | .pa => 0
  | .size => 1
  | .w => 2
  | .h => 3
  | .bpl => 4
  | .fmt => 5
  | .seq => 6
  | .ts => 7
  | .gain0 => 8
  | .gain1 => 9
  | .gain2 => 10
  | .seed => 11

/-- j, the place of a control's field (10_state.md R42). -/
def CtrlField.place : CtrlField → Nat
  | .supported => 0
  | .min => 1
  | .max => 2
  | .step => 3
  | .default => 4
  | .current => 5

/-- The number of a register (10_state.md R42). -/
def Register.number : Register → Nat
  | .state => 0
  | .armed => 1
  | .cbEn => 2
  | .status0 => 3
  | .status1 => 4
  | .dmaStart => 5
  | .dmaEnd => 6
  | .seq => 7
  | .attached => 8
  | .n => 9
  | .inCur => 10
  | .outCur => 11
  | .modeW => 12
  | .modeH => 13
  | .modeBpl => 14
  | .modeFmt => 15
  | .modeValid => 16
  | .frameActive => 17
  | .slot i j => 0x100 + 16 * i + j.place
  | .ctrl k j => 0x400 + 8 * k + j.place

end Sys2Proof.Machine
end

