-- ==== Sys2Proof/Tests/Slice0.lean ====
section
/-! SUPPORT. Tests with expected values from 95_test_vectors.md and the rules, and a witness for the hypotheses of
each statement. -/

namespace Sys2Proof.Tests

open Sys2Proof.Machine

/-! ### Well-formedness: an ill-formed term for each check -/

theorem test_slot_selector_20_is_ill_formed :
    (Instr.pub 20 0).wf = false ∧ (Instr.desc 20).wf = false ∧ (Instr.gains 255).wf = false ∧
    (Instr.getpix 20 0 0).wf = false ∧ (Instr.pix888 20 0 0).wf = false ∧ (Instr.pix565 20 0 0).wf = false ∧
    (Instr.conv888 20 0).wf = false ∧ (Instr.conv565 20 0).wf = false ∧ (Instr.wbal 20 1 1).wf = false := by
  decide

theorem test_control_selector_16_is_ill_formed :
    (Instr.ksetup 16 0 1 1 0).wf = false ∧ (Instr.kset 16 0).wf = false ∧ (Instr.ksetp 16 0).wf = false ∧
    (Instr.kget 16).wf = false ∧ (Instr.kinfo 255).wf = false := by decide

theorem test_setup_order_is_checked :
    (Instr.ksetup 5 5 4 1 5).wf = false ∧ (Instr.ksetup 5 0 4 1 0xFFFFFFFF).wf = false ∧
    (Instr.ksetup 5 0xFFFFFFFF 4 1 0).wf = true := by decide

theorem test_last_selectors_are_well_formed :
    (Instr.desc 19).wf = true ∧ (Instr.kget 15).wf = true := by decide

/-! ### Decoding: a packet written out for each operation (95_test_vectors.md T1 to T7b, 30_encoding.md R103) -/

theorem test_decode_alloc : decode ⟨0x00190010, 0, 0, 0, 0⟩ = .instr (.alloc 25) := by decide
theorem test_decode_free : decode ⟨0x00000011, 0, 0, 0, 0⟩ = .instr .free := by decide
theorem test_decode_taf : decode ⟨0x00000012, 0, 0, 0, 0⟩ = .instr .taf := by decide
theorem test_decode_pub : decode ⟨0x00000113, 2, 0, 0, 0⟩ = .instr (.pub 1 2) := by decide
theorem test_decode_tar : decode ⟨0x0000FF14, 9, 9, 9, 9⟩ = .instr .tar := by decide
theorem test_decode_rel : decode ⟨0x00000015, 0, 0, 0, 0⟩ = .instr .rel := by decide
theorem test_decode_desc : decode ⟨0x0000FF16, 0, 0, 0, 0⟩ = .instr (.desc 255) := by decide
theorem test_decode_gains : decode ⟨0x00000117, 0, 0, 0, 0⟩ = .instr (.gains 1) := by decide
theorem test_decode_start :
    decode ⟨0x00010020, 0, 0, 0, 0⟩ = .instr (.start true) ∧
    decode ⟨0xFFFE0020, 0, 0, 0, 0⟩ = .instr (.start false) := by decide
theorem test_decode_stop : decode ⟨0x00000021, 0, 0, 0, 0⟩ = .instr .stop := by decide
theorem test_decode_isr : decode ⟨0x00000022, 0, 0, 0, 0⟩ = .instr .isr := by decide
theorem test_decode_mode : decode ⟨0x0B190023, 5, 4, 0x10, 0⟩ = .instr (.mode 0x0B19 5 4 16) := by decide
theorem test_decode_getpix : decode ⟨0x00001430, 2, 3, 0, 0⟩ = .instr (.getpix 20 2 3) := by decide
theorem test_decode_pix888 : decode ⟨0x00000131, 2, 3, 0, 0⟩ = .instr (.pix888 1 2 3) := by decide
theorem test_decode_pix565 : decode ⟨0x00000032, 2, 3, 0, 0⟩ = .instr (.pix565 0 2 3) := by decide
theorem test_decode_conv888 : decode ⟨0x00000033, 0x5000, 0, 0, 0⟩ = .instr (.conv888 0 0x5000) := by decide
theorem test_decode_conv565 : decode ⟨0x00000034, 0x4000, 0, 0, 0⟩ = .instr (.conv565 0 0x4000) := by decide
theorem test_decode_wbal : decode ⟨0x00000135, 3, 1, 0, 0⟩ = .instr (.wbal 1 3 1) := by decide
theorem test_decode_ksetup :
    decode ⟨0x00000340, 0xFFFFFFF8, 7, 1, 0⟩ = .instr (.ksetup 3 0xFFFFFFF8 7 1 0) := by decide
theorem test_decode_kset : decode ⟨0x00000341, 0xFFFFFFF7, 0, 0, 0⟩ = .instr (.kset 3 0xFFFFFFF7) := by decide
theorem test_decode_ksetp : decode ⟨0x00630442, 0, 0, 0, 0⟩ = .instr (.ksetp 4 99) := by decide
theorem test_decode_kget : decode ⟨0x00000043, 0, 0, 0, 0⟩ = .instr (.kget 0) := by decide
theorem test_decode_kinfo : decode ⟨0x00000344, 0, 0, 0, 0⟩ = .instr (.kinfo 3) := by decide

/-- The four undefined ops of 95_test_vectors.md T9. -/
theorem test_decode_unknown :
    decode ⟨0x00000000, 0, 0, 0, 0⟩ = .unknownOp 0x00 ∧ decode ⟨0x000000FF, 0, 0, 0, 0⟩ = .unknownOp 0xFF ∧
    decode ⟨0x00000018, 0, 0, 0, 0⟩ = .unknownOp 0x18 ∧ decode ⟨0x00000045, 0, 0, 0, 0⟩ = .unknownOp 0x45 := by
  decide

/-- A table word: the five words of a packet, the first least significant. -/
theorem test_table_word :
    decodeTableWord 160 0x000000000000001000000004000000050B190023 = some (.mode 0x0B19 5 4 16) ∧
    decodeTableWord 32 0x0B190023 = some (.mode 0x0B19 0 0 0) ∧ decodeTableWord 160 0x99 = none := by decide

/-- Numbers of 10_state.md R42: the last slot's seed and the last control's current value. -/
theorem test_register_numbers :
    (Register.slot 19 .seed).number = 0x23B ∧ (Register.ctrl 15 .current).number = 0x47D ∧
    Register.frameActive.number = 17 := by decide

/-! ### Small states -/

/-- The frame of 95_test_vectors.md T4 at 0x1000, its zero bytes unlisted. -/
def frameT4 : Memory := [
  (0x1000, 0x0c), (0x1001, 0xc8), (0x1002, 0x22), (0x1003, 0xb4), (0x1004, 0x38), (0x1005, 0x5a),
  (0x1008, 0x4d), (0x1009, 0x8c), (0x100A, 0x5b), (0x100B, 0x3f), (0x100C, 0x78), (0x100D, 0x21),
  (0x1010, 0x2d), (0x1011, 0x65), (0x1012, 0xc8), (0x1013, 0x55), (0x1014, 0xd2), (0x1015, 0x12),
  (0x1018, 0x96), (0x1019, 0x3c), (0x101A, 0x63), (0x101B, 0xf0), (0x101C, 0x47), (0x101D, 0x85),
  (0x1020, 0x16), (0x1021, 0xbe), (0x1022, 0x40), (0x1023, 0x6f), (0x1024, 0xff), (0x1025, 0x09),
  (0x1028, 0x05), (0x1029, 0xfa), (0x102A, 0x1e), (0x102B, 0xaa), (0x102C, 0x50), (0x102D, 0x29)]

/-- The frame of 95_test_vectors.md T5 at 0x1000, its zero bytes unlisted. -/
def frameT5 : Memory := [
  (0x1000, 0x64), (0x1002, 0x84), (0x1003, 0x03), (0x1004, 0xd2), (0x1006, 0xff), (0x1007, 0x03), (0x1008, 0x32),
  (0x1010, 0x90), (0x1011, 0x01), (0x1013, 0x02), (0x1014, 0xbc), (0x1015, 0x02), (0x1016, 0x4d), (0x1017, 0x01),
  (0x1018, 0x58), (0x1019, 0x02),
  (0x1020, 0x34), (0x1021, 0x03), (0x1022, 0x5a), (0x1024, 0xe8), (0x1025, 0x03), (0x1027, 0x01), (0x1028, 0x4b),
  (0x1030, 0x80), (0x1031, 0x02), (0x1032, 0xe0), (0x1033, 0x01), (0x1034, 0x40), (0x1035, 0x01), (0x1036, 0xa0),
  (0x1038, 0x08)]

/-- A slot of the mode 0x0E47, 6 by 6, 8 bytes a line, as ALLOC leaves it. -/
def slotAt (pa : Word) : Slot :=
  ⟨pa, 48, 6, 6, 8, 0x0E47, 0, 0, 65536, 65536, 65536, 1⟩

/-- After MODE #0x0E47, 6, 6, 8 from reset. -/
def moded : State :=
  { State.reset with modeW := 6, modeH := 6, modeBpl := 8, modeFmt := 0x0E47, modeValid := true }

/-- After ALLOC #3 on `moded`, with the frame of T4 in slot 0. -/
def pooled : State :=
  { moded with slots := [slotAt 0x1000, slotAt 0x1100, slotAt 0x1200], mem := frameT4 }

/-- `pooled` with slot 0 published. -/
def published : State := { pooled with inCur := 1 }

/-- `pooled` after START #1. -/
def started : State :=
  { pooled with session := .streaming, armed := true, cbEn := true, dmaStart := 0x8000, dmaEnd := 0x8030 }

/-- `started` with slot 0 attached and its frame arriving. -/
def capturing : State :=
  { started with attached := some 0, frameActive := true, dmaStart := 0x1000, dmaEnd := 0x1030 }

/-- `started` with two slots ready: the ring is full. -/
def crowded : State := { started with inCur := 2 }

/-- The slot and the pool of the 10-bit frame of T5: 0x0B19, 5 by 4, 16 bytes a line. -/
def slotT5 : Slot := ⟨0x1000, 64, 5, 4, 16, 0x0B19, 0, 0, 131072, 65536, 32768, 1⟩

def pooledT5 : State :=
  { State.reset with
    modeW := 5, modeH := 4, modeBpl := 16, modeFmt := 0x0B19, modeValid := true, mem := frameT5
    slots := [slotT5, { slotT5 with pa := 0x1100 }, { slotT5 with pa := 0x1200 }] }

/-- `pooledT5` with the byte at 0x1015 set to 6: the container of (2, 1) reads 1724. -/
def malformedT5 : State := { pooledT5 with mem := Memory.write frameT5 0x1015 6 }

/-- Reset with control 3 set up as KSETUP k3, -8, 7, 1, 0 leaves it. -/
def controlled : State :=
  { State.reset with ctrls := State.reset.ctrls.set 3 ⟨true, 0xFFFFFFF8, 7, 1, 0, 0⟩ }

/-- The state of a next outcome. -/
def after (o : Out) : State :=
  match o with
  | .next s => s
  | _ => State.reset

/-- The answer of an operation, if it gives one. -/
def answer (i : Instr) (s : State) : Option Response :=
  match exec i s with
  | .next t => t.resp
  | _ => none

/-! ### One step of each operation (95_test_vectors.md T1 to T7b) -/

theorem test_alloc_clamps :
    answer (.alloc 25) moded = some ⟨.ok, 20, 0, 0, 0⟩ ∧ answer (.alloc 0) moded = some ⟨.ok, 3, 0, 0, 0⟩ := by decide
theorem test_alloc_writes_slots :
    (after (exec (.alloc 3) moded)).slots = [slotAt 0x1000, slotAt 0x1100, slotAt 0x1200] := by decide
theorem test_free : answer .free pooled = some ⟨.ok, 0, 0, 0, 0⟩ ∧ answer .free moded = some ⟨.illegal, 0, 0, 0, 0⟩ := by
  decide
theorem test_taf :
    answer .taf published = some ⟨.ok, 1, 0, 0, 0⟩ ∧
    answer .taf { pooled with inCur := 2 } = some ⟨.none, 0, 0, 0, 0⟩ := by decide
theorem test_pub :
    after (exec (.pub 1 2) published) =
      { published with
        slots := [slotAt 0x1000, { slotAt 0x1100 with seq := 2 }, slotAt 0x1200]
        inCur := 2
        resp := some ⟨.ok, 2, 0, 0, 0⟩ } := by decide
theorem test_pub_full : answer (.pub 2 3) { pooled with inCur := 2 } = some ⟨.illegal, 0, 0, 0, 0⟩ := by decide
theorem test_tar :
    answer .tar { pooled with inCur := 2, outCur := 1, slots := [slotAt 0x1000, { slotAt 0x1100 with seq := 2 },
      slotAt 0x1200] } = some ⟨.ok, 1, 2, 0, 0x0E47⟩ ∧
    answer .tar pooled = some ⟨.none, 0, 0, 0, 0⟩ := by decide
theorem test_rel :
    after (exec .rel published) = { published with outCur := 1, resp := some ⟨.ok, 0, 0, 0, 0⟩ } ∧
    answer .rel pooled = some ⟨.illegal, 0, 0, 0, 0⟩ := by decide
theorem test_desc :
    answer (.desc 0) pooled = some ⟨.ok, 6, 6, 8, 0x0E47⟩ ∧
    answer (.desc 3) pooled = some ⟨.illegal, 0, 0, 0, 0⟩ := by decide
theorem test_gains : answer (.gains 0) pooled = some ⟨.ok, 65536, 65536, 65536, 1⟩ := by decide
theorem test_start :
    after (exec (.start true) pooled) = { started with resp := some ⟨.ok, 0, 0, 0, 0⟩ } ∧
    answer (.start false) moded = some ⟨.rejected, 0, 0, 0, 0⟩ := by decide
theorem test_stop :
    (after (exec .stop capturing)).attached = none ∧ answer .stop pooled = some ⟨.rejected, 0, 0, 0, 0⟩ := by decide
theorem test_isr_attaches :
    let t := after (exec .isr { started with status0 := 1, status1 := 1, draws := ⟨true, true, 7⟩ })
    t.resp = some ⟨.ok, 0x19, 0, 0, 0⟩ ∧ t.attached = some 0 ∧ t.dmaStart = 0x1000 ∧ t.dmaEnd = 0x1030 ∧
      t.slots[0]? = some { slotAt 0x1000 with ts := 7 } := by decide
theorem test_isr_publishes_and_attaches :
    let t := after (exec .isr { capturing with status0 := 1, status1 := 3, draws := ⟨true, true, 200⟩ })
    t.resp = some ⟨.ok, 0x1F, 0, 0, 0⟩ ∧ t.inCur = 1 ∧ t.readyLog = [0] ∧ t.seq = 1 ∧ t.attached = some 1 ∧
      t.dmaStart = 0x1100 := by decide
theorem test_mode :
    after (exec (.mode 0x0E47 6 6 8) State.reset) = { moded with resp := some ⟨.ok, 48, 0, 0, 0⟩ } := by decide
theorem test_mode_rejects :
    answer (.mode 0x0E4B 6 6 16) State.reset = some ⟨.rejected, 0, 0, 0, 0⟩ ∧
    answer (.mode 0x1E49 6 6 16) State.reset = some ⟨.rejected, 0, 0, 0, 0⟩ ∧
    answer (.mode 0x2E47 6 6 8) State.reset = some ⟨.rejected, 0, 0, 0, 0⟩ ∧
    answer (.mode 0x0E47 6 6 12) State.reset = some ⟨.rejected, 0, 0, 0, 0⟩ ∧
    answer (.mode 0x0E47 65536 6 65536) State.reset = some ⟨.rejected, 0, 0, 0, 0⟩ := by decide
theorem test_getpix :
    answer (.getpix 0 2 2) pooled = some ⟨.ok, 200, 94, 125, 0⟩ ∧
    answer (.getpix 0 3 2) pooled = some ⟨.ok, 205, 85, 151, 0⟩ ∧
    answer (.getpix 0 2 3) pooled = some ⟨.ok, 132, 99, 150, 0⟩ ∧
    answer (.getpix 0 1 1) pooled = some ⟨.ok, 72, 117, 140, 0⟩ := by decide
theorem test_getpix_ten_bit :
    answer (.getpix 0 2 1) pooledT5 = some ⟨.ok, 567, 513, 700, 0⟩ ∧
    answer (.getpix 0 2 2) malformedT5 = some ⟨.illegal, 0, 0, 0, 0⟩ ∧
    answer (.getpix 0 2 0) malformedT5 = some ⟨.ok, 0, 0, 0, 0⟩ := by decide
theorem test_pix888 :
    answer (.pix888 0 1 1) pooledT5 = some ⟨.ok, 247, 128, 68, 0⟩ ∧
    answer (.pix888 0 6 3) pooled = some ⟨.rejected, 0, 0, 0, 0⟩ := by decide
theorem test_pix565 :
    answer (.pix565 0 2 2) pooled = some ⟨.ok, 0xCAEF, 0, 0, 0⟩ ∧
    answer (.pix565 0 1 1) pooledT5 = some ⟨.ok, 0xF408, 0, 0, 0⟩ := by decide
theorem test_conv888 :
    let t := after (exec (.conv888 0 0x5000) pooled)
    t.resp = some ⟨.ok, 108, 0, 0, 0⟩ ∧
      [0x5026, 0x5027, 0x5028, 0x5029, 0x502A, 0x5033].map (Memory.read t.mem) =
        [0x00, 0x7a, 0x65, 0x64, 0xc8, 0x00] := by decide
theorem test_conv888_refuses_overlap :
    answer (.conv888 0 0x1020) pooled = some ⟨.illegal, 0, 0, 0, 0⟩ ∧
    answer (.conv888 0 0xFFFFFFF0) pooled = some ⟨.illegal, 0, 0, 0, 0⟩ ∧
    answer (.conv888 0 0x4000) malformedT5 = some ⟨.illegal, 0, 0, 0, 0⟩ := by decide
theorem test_conv565 :
    let t := after (exec (.conv565 0 0x4000) pooledT5)
    t.resp = some ⟨.ok, 40, 0, 0, 0⟩ ∧
      [0x400A, 0x400B, 0x400C, 0x400D, 0x4018, 0x4019].map (Memory.read t.mem) =
        [0x00, 0x00, 0x08, 0xf4, 0xc7, 0x57] := by decide
theorem test_conv565_refuses_scratch : answer (.conv565 0 0x7FF0) pooled = some ⟨.illegal, 0, 0, 0, 0⟩ := by decide
theorem test_wbal :
    (after (exec (.wbal 0 4 2) pooled)).resp = some ⟨.ok, 66313, 90844, 53208, 0⟩ ∧
    ((after (exec (.wbal 0 4 2) pooled)).slots[0]?.map Slot.seed) = some 0xC487EB71 := by decide +kernel
theorem test_wbal_guard :
    (after (exec (.wbal 1 3 1) pooled)).resp = some ⟨.guarded, 65536, 65536, 65536, 0⟩ ∧
    ((after (exec (.wbal 1 3 1) pooled)).slots[1]?.map Slot.seed) = some 0x95FB7483 := by decide +kernel
theorem test_kset_signed :
    answer (.kset 3 0xFFFFFFF7) controlled = some ⟨.rejected, 0, 0, 0, 0⟩ ∧
    answer (.kset 3 0xFFFFFFF8) controlled = some ⟨.ok, 0, 0, 0, 0⟩ := by decide
theorem test_ksetup :
    after (exec (.ksetup 3 0xFFFFFFF8 7 1 0) State.reset) =
      { controlled with resp := some ⟨.ok, 0, 0, 0, 0⟩ } ∧
    answer (.ksetup 16 0 1 1 0) State.reset = some ⟨.illegal, 0, 0, 0, 0⟩ := by decide
theorem test_ksetp :
    answer (.ksetp 3 50) controlled = some ⟨.ok, 0xFFFFFFFF, 0, 0, 0⟩ ∧
    answer (.ksetp 3 101) controlled = some ⟨.rejected, 0, 0, 0, 0⟩ := by decide
theorem test_kget :
    answer (.kget 3) controlled = some ⟨.ok, 0, 0, 0, 0⟩ ∧
    answer (.kget 0) controlled = some ⟨.rejected, 0, 0, 0, 0⟩ := by decide
theorem test_kinfo :
    answer (.kinfo 3) controlled = some ⟨.ok, 0xFFFFFFF8, 7, 1, 0⟩ ∧
    answer (.kinfo 0) controlled = some ⟨.none, 0, 0, 0, 0⟩ := by decide

/-! ### Witnesses: states that meet the invariant and the premises -/

/-- A state with the slots, mode, controls and memory of `pooled` keeps the invariant if its cursors and its engine
do. -/
theorem pooled_inv_of (s : State)
    (h : (s.slots, s.modeW, s.modeH, s.modeBpl, s.modeFmt, s.modeValid) =
        (pooled.slots, pooled.modeW, pooled.modeH, pooled.modeBpl, pooled.modeFmt, pooled.modeValid) ∧
      (s.ctrls, s.mem, s.params) = (pooled.ctrls, pooled.mem, pooled.params))
    (ring : s.RingOk) (engine : s.EngineOk) (attached : s.AttachedOk) (status : s.StatusOk) : s.Inv := by
  simp only [Prod.mk.injEq] at h
  obtain ⟨⟨h1, h2, h3, h4, h5, h6⟩, h7, h8, h9⟩ := h
  refine ⟨ring, engine, attached, status, ?_, ?_, ?_, ?_⟩
  · unfold State.ModeOk LegalFormat
    rw [h2, h3, h4, h5, h6, h9]
    decide
  · refine ⟨fun _ => by rw [h6]; decide, fun i d hd => ?_⟩
    rw [h1] at hd
    rw [h2, h3, h4, h5, h9]
    rcases i with _ | _ | _ | i
    · obtain rfl : slotAt 0x1000 = d := by simpa [pooled] using hd
      decide
    · obtain rfl : slotAt 0x1100 = d := by simpa [pooled] using hd
      decide
    · obtain rfl : slotAt 0x1200 = d := by simpa [pooled] using hd
      decide
    · simp [pooled] at hd
  · unfold State.ControlsOk
    rw [h7]
    decide
  · unfold State.MemoryOk
    rw [h8]
    decide

theorem pooled_inv : pooled.Inv :=
  pooled_inv_of pooled ⟨rfl, rfl⟩ (by unfold State.RingOk; decide) (by unfold State.EngineOk; decide)
    (by intro i h; cases h) (by unfold State.StatusOk; decide)

theorem published_inv : published.Inv :=
  pooled_inv_of published ⟨rfl, rfl⟩ (by unfold State.RingOk; decide) (by unfold State.EngineOk; decide)
    (by intro i h; cases h) (by unfold State.StatusOk; decide)

/-- `pooled` with two slots published: the ring is full. -/
def filled : State := { pooled with inCur := 2 }

theorem filled_inv : filled.Inv :=
  pooled_inv_of filled ⟨rfl, rfl⟩ (by unfold State.RingOk; decide) (by unfold State.EngineOk; decide)
    (by intro i h; cases h) (by unfold State.StatusOk; decide)

theorem started_inv : started.Inv :=
  pooled_inv_of started ⟨rfl, rfl⟩ (by unfold State.RingOk; decide) (by unfold State.EngineOk; decide)
    (by intro i h; cases h) (by unfold State.StatusOk; decide)

theorem crowded_inv : crowded.Inv :=
  pooled_inv_of crowded ⟨rfl, rfl⟩ (by unfold State.RingOk; decide) (by unfold State.EngineOk; decide)
    (by intro i h; cases h) (by unfold State.StatusOk; decide)

theorem capturing_inv : capturing.Inv :=
  pooled_inv_of capturing ⟨rfl, rfl⟩ (by unfold State.RingOk; decide) (by unfold State.EngineOk; decide)
    (by intro i h; cases h; decide) (by unfold State.StatusOk; decide)

theorem pooled_may_decode : pooled.MayDecode 0 (slotAt 0x1000) := by unfold State.MayDecode; decide

theorem legal_0E47 : LegalFormat 0x0E47 := by unfold LegalFormat; decide

theorem pooled_readable (u v : Nat) (hu : u < 6) (hv : v < 6) : pooled.ReadableAt (slotAt 0x1000) u v := by
  unfold State.ReadableAt Slot.sampleAt State.rawSample State.byteAt
  refine ⟨?_, ?_⟩
  · simp only [slotAt, sampleBytes]
    simp
    omega
  · rw [if_pos (by decide)]
    have := (Memory.read pooled.mem ((slotAt 0x1000).sampleAt u v)).isLt
    exact Nat.lt_of_lt_of_le this (by decide)

theorem pooled_readable_around (x y : Nat) (h : (slotAt 0x1000).Interior x y) :
    pooled.ReadableAround (slotAt 0x1000) x y := by
  intro q hq
  have := Slot.samplesRead_in_frame h hq
  exact pooled_readable q.1 q.2 this.1 this.2

/-- `s` with one packet waiting. -/
def feeding (s : State) (port : Port) (p : Packet) : State := { s with inputs := [.packet port p] }

/-! ### Witnesses: the hypotheses of each statement -/

/-- A known code with every field set, and the first unknown code past the last. -/
theorem witness_DecoderMatchesOpAlone :
    (0x00320342 : Word).toNat % 256 = 0x42 ∧ decode ⟨0x00320342, 0, 0, 0, 0⟩ = .instr (.ksetp 3 50) ∧
    decode ⟨0x45, 0, 0, 0, 0⟩ = .unknownOp 0x45 ∧ decode ⟨0x44, 0, 0, 0, 0⟩ = .instr (.kinfo 0) := by decide

/-- Two packets that agree on the fields their operation uses and differ elsewhere: START, TAR, PUB. -/
theorem witness_DecodingReadsExactlyTheUsedFields :
    decode ⟨0x00010020, 0, 0, 0, 0⟩ = decode ⟨0xFFFFFF20, 1, 2, 3, 4⟩ ∧
    decode ⟨0x14, 0, 0, 0, 0⟩ = decode ⟨0xFFFFFF14, 1, 2, 3, 4⟩ ∧
    decode ⟨0x0113, 2, 0, 0, 0⟩ = decode ⟨0xFFFF0113, 2, 2, 3, 4⟩ := by decide

theorem witness_IllFormedOperandsAreRefused : (Instr.getpix 20 0 0).wf = false ∧ pooled.n ≤ 20 := by decide

theorem witness_StepRunsTheDecodedInstruction :
    decode ⟨0x30, 2, 2, 0, 0⟩ = .instr (.getpix 0 2 2) ∧
    (feeding pooled (Instr.getpix 0 2 2).port ⟨0x30, 2, 2, 0, 0⟩).inputs =
      .packet (Instr.getpix 0 2 2).port ⟨0x30, 2, 2, 0, 0⟩ :: [] ∧
    decodeTableWord 160 0x22 = some .isr := by decide

theorem witness_UnknownOpOrWrongPortIsRefused :
    (∀ i, decode ⟨0x18, 0, 0, 0, 0⟩ = .instr i → i.port ≠ .task) ∧
    (∀ i, decode ⟨0x14, 0, 0, 0, 0⟩ = .instr i → i.port ≠ .interrupt) := by
  refine ⟨fun i h => ?_, fun i h => ?_⟩
  · cases h
  · cases h
    decide

theorem witness_ReceiverStepsLatchTheirConditions :
    started.session = .streaming ∧ started.frameActive = false ∧
    capturing.session = .streaming ∧ capturing.frameActive = true := by decide

/-- Both ends of the DMA region. -/
theorem witness_ReceiverDataStoresOneByte :
    capturing.session = .streaming ∧ capturing.frameActive = true ∧
    capturing.dmaStart.toNat ≤ (0x1000 : Word).toNat ∧ (0x1000 : Word).toNat < capturing.dmaEnd.toNat ∧
    capturing.dmaStart.toNat ≤ (0x102F : Word).toNat ∧ (0x102F : Word).toNat < capturing.dmaEnd.toNat ∧
    capturing.MemoryOk := by
  refine ⟨?_, ?_, ?_, ?_, ?_, ?_, capturing_inv.memory⟩ <;> decide

/-- A frame arriving, none arriving, and the addresses next below and next above the DMA region. -/
theorem witness_DisabledReceiverAndEnvironmentChangeNothing :
    pooled.session = .disabled ∧ pooled.inputs = [] ∧
    { pooled with inputs := [.rx .fs] }.inputs = .rx .fs :: [] ∧
    (capturing.session = .streaming ∧ capturing.frameActive = true) ∧
    (started.session = .streaming ∧ started.frameActive = false) ∧
    (0x0FFF : Word).toNat < capturing.dmaStart.toNat ∧ capturing.dmaEnd.toNat ≤ (0x1030 : Word).toNat ∧
    { pooled with inputs := [.env ⟨false, true, 9⟩] }.inputs = .env ⟨false, true, 9⟩ :: [] := by decide

/-- RX_EXTRA during a frame latches nothing. -/
theorem test_extra_during_a_frame :
    let t := after (step { capturing with inputs := [.rx (.extra true true true)] })
    t.status0 = 0 ∧ t.status1 = 0 := by decide

theorem witness_EveryStepKeepsTheInvariant :
    published.Inv ∧ ∃ s', step (feeding published .task ⟨0x15, 0, 0, 0, 0⟩) = .next s' :=
  ⟨published_inv, _, rfl⟩

theorem pooled_in_space : pooled.BuffersInSpace := by unfold State.BuffersInSpace; decide

theorem pooled_launch_premises : pooled.LaunchPremises :=
  ⟨by unfold Params.Legal; decide, by decide, by decide, by decide, by decide, by decide⟩

/-- `moded` about to create the largest pool. -/
def allocating : State := feeding moded .task ⟨0x00190010, 0, 0, 0, 0⟩

theorem allocating_inv : allocating.Inv := by
  refine ⟨?_, ?_, fun i h => (by cases h), ?_, ?_, ⟨fun h => absurd rfl h, fun i d h => ?_⟩, ?_, ?_⟩
  · unfold State.RingOk; decide
  · unfold State.EngineOk; decide
  · unfold State.StatusOk; decide
  · unfold State.ModeOk LegalFormat; decide
  · simp [allocating, feeding, moded, State.reset, State.resetWith] at h
  · unfold State.ControlsOk; decide
  · unfold State.MemoryOk; decide

theorem allocating_placed : allocating.NextPoolPlaced := by
  rintro count ⟨p, rest, hin, hd⟩
  simp only [allocating, feeding, List.cons.injEq, Event.packet.injEq] at hin
  obtain ⟨⟨-, rfl⟩, -⟩ := hin
  rw [show decode ⟨0x00190010, 0, 0, 0, 0⟩ = .instr (.alloc 25) from rfl] at hd
  cases hd
  exact ⟨by decide, by decide, by decide, by decide, by decide⟩

/-- The pool of `pooled`; no pool and an ALLOC of the largest; the parameters of reset. -/
theorem witness_NoStepStopsUnderThePremise :
    (pooled.Inv ∧ pooled.BuffersInSpace ∧ pooled.LaunchPremises) ∧
    (allocating.Inv ∧ allocating.LaunchPremises ∧ allocating.NextPoolPlaced) ∧ Params.conventions.Legal :=
  ⟨⟨pooled_inv, pooled_in_space, pooled_launch_premises⟩,
    ⟨allocating_inv,
      ⟨by unfold Params.Legal; decide, by decide, by decide, by decide, by decide, by decide⟩,
      allocating_placed⟩,
    by unfold Params.Legal; decide⟩

/-- The bound is met by a full ring and by one ready and one attached slot. -/
theorem witness_RingCapacityIsBounded :
    crowded.Inv ∧ capturing.Inv ∧ crowded.n ≠ 0 ∧ capturing.n ≠ 0 :=
  ⟨crowded_inv, capturing_inv, by decide, by decide⟩

/-- REL of `published` frees the slot the application held. -/
theorem witness_OwnershipMovesForward :
    let s := feeding published .task ⟨0x15, 0, 0, 0, 0⟩
    published.Inv ∧ step s = .next (after (step s)) ∧ (after (step s)).n = s.n ∧ 0 < s.n ∧
      s.owner 0 = .application ∧ (after (step s)).owner 0 = .free :=
  ⟨published_inv, rfl, by decide, by decide, by decide, by decide⟩

/-- `capturing` at a frame end, ISR waiting. -/
def closing : State := feeding { capturing with status0 := 1, status1 := 2 } .interrupt ⟨0x22, 0, 0, 0, 0⟩

/-- `started` at a packet-capture-complete with nothing attached, ISR waiting. -/
def skipping : State := feeding { started with status0 := 2 } .interrupt ⟨0x22, 0, 0, 0, 0⟩

theorem closing_inv : closing.Inv :=
  pooled_inv_of closing ⟨rfl, rfl⟩ (by unfold State.RingOk; decide) (by unfold State.EngineOk; decide)
    (by intro i h; cases h; decide) (by unfold State.StatusOk; decide)

theorem closing_services : closing.ServicesABoundary :=
  ⟨⟨⟨0x22, 0, 0, 0, 0⟩, [], rfl, rfl⟩, by decide⟩

theorem skipping_services : skipping.ServicesABoundary :=
  ⟨⟨⟨0x22, 0, 0, 0, 0⟩, [], rfl, rfl⟩, by decide⟩

theorem closing_is_no_pub (slot : Byte) (q : Word) : ¬ closing.Runs (.pub slot q) := by
  rintro ⟨p, rest, hin, hd⟩
  simp only [closing, feeding, List.cons.injEq, Event.packet.injEq] at hin
  obtain ⟨⟨-, rfl⟩, -⟩ := hin
  cases hd

theorem closing_numbered : closing.Numbered := by
  have hl : closing.readyLog = [] := rfl
  have hq : closing.readyQueue = [] := by decide
  unfold State.Numbered
  rw [hl, hq]
  simp

theorem closing_seq_small : closing.seq.toNat + 1 < 2 ^ 32 := by
  have h : closing.seq = 0 := rfl
  simp [h]

/-- A frame end with slot 0 attached publishes number 0 and moves SEQ. -/
theorem witness_SequenceCounterNumbersTheBoundaries :
    step closing = .next (after (step closing)) ∧ closing.Inv ∧ closing.ServicesABoundary ∧
    closing.attached = some 0 ∧ closing.Numbered ∧ (∀ slot q, ¬ closing.Runs (.pub slot q)) ∧
    closing.seq.toNat + 1 < 2 ^ 32 :=
  ⟨rfl, closing_inv, closing_services, rfl, closing_numbered, closing_is_no_pub, closing_seq_small⟩

/-- With nothing attached the number is skipped; a REL services no boundary. -/
theorem witness_SequenceCounterNumbersTheBoundaries_gap :
    step skipping = .next (after (step skipping)) ∧ skipping.ServicesABoundary ∧ skipping.attached = none ∧
    ¬ published.ServicesABoundary :=
  ⟨rfl, skipping_services, rfl, fun h => absurd h.2.1 (by decide)⟩

theorem test_boundary_numbers :
    (after (step closing)).seq = 1 ∧ (after (step closing)).readyQueue = [(0, 0)] ∧
    (after (step closing)).readyLog = [0] ∧ (after (step skipping)).seq = 1 ∧
    (after (step skipping)).readyQueue = [] := by decide

/-- START begins a session, on scratch, and STOP ends one. -/
theorem witness_SessionChangesOnlyByStartAndStop :
    let s := feeding pooled .task ⟨0x20, 0, 0, 0, 0⟩
    let t := feeding started .task ⟨0x21, 0, 0, 0, 0⟩
    step s = .next (after (step s)) ∧ (after (step s)).session = .streaming ∧
      (after (step s)).dmaStart = 0x8000 ∧
      step t = .next (after (step t)) ∧ (after (step t)).session = .disabled :=
  ⟨rfl, by decide, by decide, rfl, by decide⟩

/-- MODE writes the mode registers. -/
theorem witness_ModeRegistersWrittenOnlyByMode :
    let s := feeding State.reset .task ⟨0x0E470023, 6, 6, 8, 0⟩
    step s = .next (after (step s)) ∧ (after (step s)).modeW = 6 := ⟨rfl, by decide⟩

/-- The DMA pair moves to scratch, and to the buffer of slot IN. -/
theorem witness_DmaPairHasTwoSources :
    let s := feeding { crowded with status0 := 1, status1 := 1, dmaStart := 0 } .interrupt ⟨0x22, 0, 0, 0, 0⟩
    let t := feeding { started with status0 := 1, status1 := 1 } .interrupt ⟨0x22, 0, 0, 0, 0⟩
    step s = .next (after (step s)) ∧ (after (step s)).dmaStart = 0x8000 ∧ (after (step s)).dmaEnd = 0x8030 ∧
      step t = .next (after (step t)) ∧ (after (step t)).dmaStart = 0x1000 ∧ (after (step t)).dmaEnd = 0x1030 :=
  ⟨rfl, by decide, by decide, rfl, by decide, by decide⟩

theorem witness_InterruptContextLeavesTaskState :
    Instr.isr.port = .interrupt ∧ exec .isr capturing = .next (after (exec .isr capturing)) ∧
    capturing.slots[0]? = some (slotAt 0x1000) := ⟨rfl, rfl, rfl⟩

theorem witness_TaskContextLeavesInterruptState :
    Instr.rel.port = .task ∧ exec .rel published = .next (after (exec .rel published)) ∧
    Instr.rel ≠ .stop ∧ (∀ cb, Instr.rel ≠ .start cb) ∧ Instr.rel ≠ .free ∧ (∀ c, Instr.rel ≠ .alloc c) ∧
    published.slots[2]? = some (slotAt 0x1200) := by
  refine ⟨rfl, rfl, ?_, ?_, ?_, ?_, rfl⟩ <;> simp

/-- KSETP moves a control. -/
theorem witness_ControlsChangeOnlyByTheirOwnOperations :
    let s := feeding controlled .task ⟨0x00320342, 0, 0, 0, 0⟩
    step s = .next (after (step s)) ∧ (after (step s)).ctrls[3].current = 0xFFFFFFFF := ⟨rfl, by decide⟩

theorem witness_SlotBuffersAreFixedAtAllocation :
    let s := feeding published .task ⟨0x15, 0, 0, 0, 0⟩
    step s = .next (after (step s)) ∧ (after (step s)).n = s.n ∧ s.slots[0]? = some (slotAt 0x1000) :=
  ⟨rfl, by decide, rfl⟩

/-- RX_DATA writes memory. -/
theorem witness_MemoryIsWrittenOnlyByReceiverAndConversions :
    let s := { capturing with inputs := [.rx (.data 0x102F 0x55)] }
    step s = .next (after (step s)) ∧
      Memory.read (after (step s)).mem 0x102F ≠ Memory.read s.mem 0x102F := ⟨rfl, by decide⟩

theorem witness_AllocCreatesThePool :
    moded.session = .disabled ∧ moded.n = 0 ∧ moded.modeValid = true ∧ moded.draws.allocOk = true ∧
    moded.modeH.toNat * moded.modeBpl.toNat < 2 ^ 32 := by decide

theorem witness_AllocFailuresChangeNothing :
    started.session = .streaming ∧ pooled.n ≠ 0 ∧ State.reset.modeValid = false ∧
    (let s := { moded with draws := ⟨false, true, 0⟩ }
     s.session = .disabled ∧ s.n = 0 ∧ s.modeValid = true ∧ s.draws.allocOk = false) := by decide

theorem witness_FreeTearsThePoolDown :
    moded.n = 0 ∧ (started.n ≠ 0 ∧ started.session = .streaming) ∧ (pooled.n ≠ 0 ∧ pooled.session = .disabled) := by
  decide

theorem witness_TafPeeksTheNextFreeSlot :
    (started.Inv ∧ started.session = .streaming) ∧
    (filled.Inv ∧ filled.n ≠ 0 ∧ filled.session = .disabled ∧ (filled.inCur + 1) % filled.n = filled.outCur) ∧
    (published.Inv ∧ published.n ≠ 0 ∧ published.session = .disabled ∧
      (published.inCur + 1) % published.n ≠ published.outCur) :=
  ⟨⟨started_inv, by decide⟩, ⟨filled_inv, by decide⟩, published_inv, by decide⟩

theorem witness_PubPublishesSlotIn :
    (published.session = .disabled ∧ (1 : Byte).toNat = published.inCur ∧
      published.slots[(1 : Byte).toNat]? = some (slotAt 0x1100) ∧
      (published.inCur + 1) % published.n ≠ published.outCur) ∧
    published.n ≤ (3 : Byte).toNat ∧ (2 : Byte).toNat ≠ published.inCur ∧
    (filled.inCur + 1) % filled.n = filled.outCur := by decide

theorem witness_TarPeeksTheHead :
    (State.reset.n = 0) ∧ (pooled.Inv ∧ pooled.n ≠ 0 ∧ pooled.inCur = pooled.outCur) ∧
    (filled.Inv ∧ filled.inCur ≠ filled.outCur ∧ filled.slots[filled.outCur]? = some (slotAt 0x1000)) :=
  ⟨by decide, ⟨pooled_inv, by decide⟩, filled_inv, by decide⟩

theorem witness_RelReleasesTheHead :
    State.reset.n = 0 ∧ pooled.inCur = pooled.outCur ∧ (published.n ≠ 0 ∧ published.inCur ≠ published.outCur) := by
  decide

theorem witness_DescAndGainsReadASlot :
    pooled.slots[(2 : Byte).toNat]? = some (slotAt 0x1200) ∧ pooled.n ≤ (3 : Byte).toNat := by decide

/-- PUB appends slot 1 behind slot 0, REL takes slot 0 off, FREE empties; and an empty ring for the scenario. -/
theorem witness_RingIsAFifoAndRunsTheScenario :
    (published.Inv ∧ published.readyQueue = [(0, 0)] ∧
      (after (step (feeding published .interrupt ⟨0x0113, 2, 0, 0, 0⟩))).readyQueue = [(0, 0), (1, 2)] ∧
      (after (step (feeding published .task ⟨0x15, 0, 0, 0, 0⟩))).readyQueue = [] ∧
      (after (step (feeding published .task ⟨0x11, 0, 0, 0, 0⟩))).readyQueue = []) ∧
    (pooled.Inv ∧ pooled.session = .disabled ∧ pooled.n = 3 ∧ pooled.inCur = pooled.outCur ∧
      (0 : Byte).toNat = pooled.inCur ∧ (1 : Byte).toNat = (pooled.inCur + 1) % 3) :=
  ⟨⟨published_inv, by decide⟩, pooled_inv, by decide⟩

/-- The widest 8-bit mode of 8-byte lines is accepted; a width of 65536, or a buffer of 2^32 bytes, is not. -/
theorem witness_ModeRecordsAnAcceptedMode :
    (State.reset.session = .disabled ∧ State.reset.n = 0 ∧ LegalFormat 0x0E47 ∧ (0x0E47 : Half).toNat < 2 ^ 13 ∧
      1 ≤ (65535 : Word).toNat ∧ (65535 : Word).toNat ≤ 65535 ∧
      (65535 : Word).toNat * sampleBytes 0x0E47 ≤ (65536 : Word).toNat ∧
      (65536 : Word).toNat % State.reset.params.lineAlign = 0 ∧
      (65535 : Word).toNat * (65536 : Word).toNat < 2 ^ 32) ∧
    ¬ (65536 : Word).toNat ≤ 65535 ∧ ¬ (65535 : Word).toNat * (65544 : Word).toNat < 2 ^ 32 ∧
    ¬ LegalFormat 0x1E49 ∧ ¬ LegalFormat 0x0E4B := by
  unfold LegalFormat
  decide

theorem witness_StartBeginsASession :
    started.session = .streaming ∧ State.reset.n = 0 ∧ State.reset.modeValid = false ∧
    (let s := { pooled with draws := ⟨true, false, 0⟩ }
     s.session = .disabled ∧ s.n ≠ 0 ∧ s.modeValid = true ∧ s.draws.bringupOk = false) ∧
    (pooled.session = .disabled ∧ pooled.n ≠ 0 ∧ pooled.modeValid = true ∧ pooled.draws.bringupOk = true ∧
      pooled.params.scratchAddr.toNat + pooled.modeH.toNat * pooled.modeBpl.toNat < 2 ^ 32) := by decide

theorem witness_StopEndsTheSession : pooled.session = .disabled ∧ capturing.session = .streaming := by decide

theorem witness_IsrSpuriousOrIdle :
    pooled.session = .disabled ∧
    (let s := { started with status1 := 2 }
     s.status0.getLsbD 0 = false ∧ s.status0.getLsbD 1 = false) ∧
    (let s := { started with status0 := 1 }
     s.session = .streaming ∧ s.status0.getLsbD 0 = true ∧ s.status0.getLsbD 1 = false ∧
      s.status1.getLsbD 0 = false ∧ s.status1.getLsbD 1 = false) := by decide

/-- A boundary by FE with a slot attached, and by PKT alone with none. -/
theorem witness_IsrEndsAFrame :
    (let s := { capturing with status0 := 1, status1 := 2 }
     s.session = .streaming ∧ s.status0.getLsbD 0 = true ∧ s.status1.getLsbD 1 = true ∧
      s.status1.getLsbD 0 = false ∧ s.attached = some s.inCur ∧ s.slots[s.inCur]? = some (slotAt 0x1000) ∧
      (s.inCur + 1) % s.n ≠ s.outCur) ∧
    (let s := { started with status0 := 2 }
     s.session = .streaming ∧ s.status0.getLsbD 1 = true ∧ s.status1.getLsbD 0 = false ∧ s.attached = none) := by
  decide

theorem witness_IsrStartsAFrame :
    (let s := { capturing with status0 := 1, status1 := 1 }
     s.session = .streaming ∧ s.status0.getLsbD 0 = true ∧ s.status0.getLsbD 1 = false ∧
      s.status1.getLsbD 1 = false ∧ s.status1.getLsbD 0 = true ∧ s.attached = some 0) ∧
    (let s := { started with status0 := 1, status1 := 1 }
     s.session = .streaming ∧ s.status0.getLsbD 0 = true ∧ s.status0.getLsbD 1 = false ∧
      s.status1.getLsbD 1 = false ∧ s.status1.getLsbD 0 = true ∧ s.attached = none ∧
      s.slots[s.inCur]? = some (slotAt 0x1000) ∧ (s.inCur + 1) % s.n ≠ s.outCur) ∧
    (let s := { crowded with status0 := 1, status1 := 1 }
     s.session = .streaming ∧ s.status0.getLsbD 0 = true ∧ s.status0.getLsbD 1 = false ∧
      s.status1.getLsbD 1 = false ∧ s.status1.getLsbD 0 = true ∧ s.attached = none ∧
      (s.inCur + 1) % s.n = s.outCur) := by decide

theorem witness_IsrOfBothIsTwoIsrs :
    let s := { capturing with status0 := 1, status1 := 3 }
    let t := after (exec .isr { s with status1 := s.status1 &&& ~~~1#32 })
    let u := after (exec .isr { t with status0 := 1#32, status1 := 1#32 })
    s.session = .streaming ∧ s.status0.getLsbD 0 = true ∧ s.status1.getLsbD 1 = true ∧
      s.status1.getLsbD 0 = true ∧ exec .isr { s with status1 := s.status1 &&& ~~~1#32 } = .next t ∧
      exec .isr { t with status0 := 1#32, status1 := 1#32 } = .next u :=
  ⟨rfl, rfl, rfl, rfl, rfl, rfl⟩

theorem witness_IsrFlagsAreTheElevenValues : exec .isr capturing = .next (after (exec .isr capturing)) := rfl

/-- The two ends of each border, and a frame of width 2. -/
theorem witness_BorderPixelsAreZero :
    pooled.MayDecode 0 (slotAt 0x1000) ∧ LegalFormat 0x0E47 ∧
    (slotAt 0x1000).OnBorder 0 0 ∧ (slotAt 0x1000).OnBorder 5 2 ∧ (slotAt 0x1000).OnBorder 3 5 ∧
    (let d := { slotAt 0x1000 with w := 2 }
     { pooled with slots := [d] }.MayDecode 0 d ∧ d.w.toNat < 3 ∧ 1 < d.w.toNat ∧ 5 < d.h.toNat) := by
  unfold State.MayDecode LegalFormat Slot.OnBorder
  decide

/-- The first and the last interior pixel. -/
theorem witness_GetpixReconstructsTheTriple :
    pooled.MayDecode 0 (slotAt 0x1000) ∧ LegalFormat 0x0E47 ∧
    ((slotAt 0x1000).Interior 1 1 ∧ pooled.ReadableAround (slotAt 0x1000) 1 1) ∧
    ((slotAt 0x1000).Interior 4 4 ∧ pooled.ReadableAround (slotAt 0x1000) 4 4) := by
  have h1 : (slotAt 0x1000).Interior 1 1 := by unfold Slot.Interior; decide
  have h4 : (slotAt 0x1000).Interior 4 4 := by unfold Slot.Interior; decide
  exact ⟨pooled_may_decode, legal_0E47, ⟨h1, pooled_readable_around 1 1 h1⟩, h4, pooled_readable_around 4 4 h4⟩

theorem witness_PixelsAreScaledAndPacked :
    pooled.MayDecode 0 (slotAt 0x1000) ∧ LegalFormat 0x0E47 ∧ (slotAt 0x1000).Interior 2 2 ∧
    pooled.ReadableAround (slotAt 0x1000) 2 2 := by
  have h : (slotAt 0x1000).Interior 2 2 := by unfold Slot.Interior; decide
  exact ⟨pooled_may_decode, legal_0E47, h, pooled_readable_around 2 2 h⟩

/-- A 3 by 3 frame of 0x04E7 with R = 10, G = 20, B = 30 (95_test_vectors.md T4e). -/
def slotT4e : Slot := { slotAt 0x1000 with w := 3, h := 3, fmt := 0x04E7, size := 24 }

def pooledT4e : State :=
  { pooled with
    slots := [slotT4e]
    mem := [(0x1000, 20), (0x1001, 30), (0x1002, 20), (0x1008, 10), (0x1009, 20), (0x100A, 10),
      (0x1010, 20), (0x1011, 30), (0x1012, 20)] }

theorem witness_DemosaicIsExactOnConstantColours :
    pooledT4e.MayDecode 0 slotT4e ∧ LegalFormat slotT4e.fmt ∧
    slotT4e.fmt.toNat / 16 % 256 ∈ [0xE4, 0xB1, 0x4E, 0x1B] ∧
    (∀ u v, u < slotT4e.w.toNat → v < slotT4e.h.toNat →
      slotT4e.sampleAt u v + sampleBytes slotT4e.fmt ≤ 2 ^ 32 ∧
      pooledT4e.rawSample slotT4e u v =
        if colourId slotT4e.fmt u v = 0 then 10 else if colourId slotT4e.fmt u v = 3 then 30 else 20) ∧
    slotT4e.Interior 1 1 := by
  have h : ∀ u < 3, ∀ v < 3, slotT4e.sampleAt u v + sampleBytes slotT4e.fmt ≤ 2 ^ 32 ∧
      pooledT4e.rawSample slotT4e u v =
        if colourId slotT4e.fmt u v = 0 then 10 else if colourId slotT4e.fmt u v = 3 then 30 else 20 := by decide
  refine ⟨by unfold State.MayDecode; decide, by unfold LegalFormat; decide, by decide,
    fun u v hu hv => h u hu v hv, by unfold Slot.Interior; decide⟩

/-- Each way to be refused and, at the first column outside the frame, rejected. -/
theorem witness_PixelOperationsRefuseAndReject :
    pooled.n ≤ (3 : Byte).toNat ∧ (started.session = .streaming ∧ started.inCur = started.outCur) ∧
    (crowded.session = .streaming ∧ (1 : Byte).toNat ≠ crowded.outCur) ∧
    (let d := { slotAt 0x1000 with fmt := 0x1E49 }
     { pooled with slots := [d] }.slots[(0 : Byte).toNat]? = some d ∧ ¬ LegalFormat d.fmt) ∧
    (pooled.MayDecode 0 (slotAt 0x1000) ∧ LegalFormat (slotAt 0x1000).fmt ∧
      (slotAt 0x1000).w.toNat ≤ (6 : Word).toNat) := by
  unfold State.MayDecode LegalFormat
  decide

/-- A Gr pixel whose diagonal neighbour is malformed reads no malformed container: (2, 2) with (1, 1) at 1536. -/
def diagonalT5 : State := { pooledT5 with mem := Memory.write frameT5 0x1013 6 }

theorem witness_GetpixReconstructsTheTriple_diagonal :
    diagonalT5.MayDecode 0 slotT5 ∧ LegalFormat slotT5.fmt ∧ slotT5.Interior 2 2 ∧
    1024 ≤ diagonalT5.rawSample slotT5 1 1 ∧ diagonalT5.ReadableAround slotT5 2 2 ∧
    answer (.getpix 0 2 2) diagonalT5 = some ⟨.ok, 173, 1000, 510, 0⟩ := by
  refine ⟨by unfold State.MayDecode; decide, by unfold LegalFormat; decide, by unfold Slot.Interior; decide,
    by decide, ?_, by decide⟩
  unfold State.ReadableAround State.ReadableAt
  decide

/-- The malformed pixel itself, the five that have it as a neighbour they read, and the one pixel WBAL s0, 1, 1 draws
(95_test_vectors.md T5). -/
theorem witness_MalformedContainersAreRefused :
    malformedT5.MayDecode 0 slotT5 ∧ LegalFormat slotT5.fmt ∧ slotT5.fmt.toNat % 16 = 9 ∧
    (∀ u v, u < slotT5.w.toNat → v < slotT5.h.toNat → slotT5.sampleAt u v + 2 ≤ 2 ^ 32) ∧
    (∀ q ∈ [(2, 1), (2, 2), (1, 2), (3, 2), (1, 1), (3, 1)],
      slotT5.Interior q.1 q.2 ∧ malformedT5.MalformedAround slotT5 q.1 q.2) ∧
    (3 ≤ slotT5.w.toNat ∧ 3 ≤ slotT5.h.toNat ∧ 0 < (1 : Word).toNat * (1 : Word).toNat ∧
      slotT5.sampledPixel 0 = (3, 1)) := by
  have h : ∀ u < 5, ∀ v < 4, slotT5.sampleAt u v + 2 ≤ 2 ^ 32 := by decide
  refine ⟨by unfold State.MayDecode; decide, by unfold LegalFormat; decide, by decide,
    fun u v hu hv => h u hu v hv, ?_, by decide⟩
  unfold Slot.Interior State.MalformedAround
  decide

/-- A malformed container refuses WBAL, gains and seed unchanged. -/
theorem test_wbal_malformed : exec (.wbal 0 1 1) malformedT5 = .next (malformedT5.answering .illegal) := by rfl

/-- A destination between the pool and the scratch region, and the last that ends where scratch begins. -/
theorem pooled_destination (dst len : Nat) (h : 0x1300 ≤ dst) (h' : dst + len ≤ 0x8000) :
    pooled.DestinationFree dst len := by
  refine ⟨by omega, fun a ha ha' => ⟨fun d hd => ?_, .inl ?_⟩⟩
  · have hd : d = slotAt 0x1000 ∨ d = slotAt 0x1100 ∨ d = slotAt 0x1200 := by simpa [pooled] using hd
    right
    rcases hd with rfl | rfl | rfl <;> simp [slotAt] <;> omega
  · show a < 0x8000
    omega

theorem witness_Conv888WritesTheFrame :
    pooled.MayDecode 0 (slotAt 0x1000) ∧ LegalFormat 0x0E47 ∧ pooled.MemoryOk ∧
    (∀ x y, (slotAt 0x1000).Interior x y → pooled.ReadableAround (slotAt 0x1000) x y) ∧
    pooled.DestinationFree (0x7F94 : Word).toNat
      (3 * ((slotAt 0x1000).w.toNat * (slotAt 0x1000).h.toNat)) :=
  ⟨pooled_may_decode, legal_0E47, pooled_inv.memory, pooled_readable_around,
    pooled_destination _ _ (by decide) (by decide)⟩

theorem witness_Conv565WritesTheFrame :
    pooled.MayDecode 0 (slotAt 0x1000) ∧ LegalFormat 0x0E47 ∧ pooled.MemoryOk ∧
    (∀ x y, (slotAt 0x1000).Interior x y → pooled.ReadableAround (slotAt 0x1000) x y) ∧
    pooled.DestinationFree (0x7FB8 : Word).toNat
      (2 * ((slotAt 0x1000).w.toNat * (slotAt 0x1000).h.toNat)) :=
  ⟨pooled_may_decode, legal_0E47, pooled_inv.memory, pooled_readable_around,
    pooled_destination _ _ (by decide) (by decide)⟩

/-- A destination that passes 2^32, one that meets a pixel buffer, one that meets scratch by one byte. -/
theorem witness_ConversionsRefuseABadDestination :
    pooled.MayDecode 0 (slotAt 0x1000) ∧ LegalFormat 0x0E47 ∧
    ¬ pooled.DestinationFree (0xFFFFFFF0 : Word).toNat (3 * (6 * 6)) ∧
    ¬ pooled.DestinationFree (0x1020 : Word).toNat (3 * (6 * 6)) ∧
    ¬ pooled.DestinationFree (0x7FB9 : Word).toNat (2 * (6 * 6)) := by
  refine ⟨pooled_may_decode, legal_0E47, fun h => absurd h.1 (by decide), fun h => ?_, fun h => ?_⟩
  · exact absurd ((h.2 0x1020 (by decide) (by decide)).1 (slotAt 0x1000) (by simp [pooled])) (by decide)
  · exact absurd (h.2 0x8000 (by decide) (by decide)).2 (by decide)

/-- Slot 0 with positive totals; slot 1, all zero, with zero totals. -/
theorem witness_WbalEstimatesTheGains :
    (pooled.MayDecode 0 (slotAt 0x1000) ∧ LegalFormat 0x0E47 ∧ 3 ≤ (slotAt 0x1000).w.toNat ∧
      3 ≤ (slotAt 0x1000).h.toNat ∧
      (∀ x y, (slotAt 0x1000).Interior x y → pooled.ReadableAround (slotAt 0x1000) x y)) ∧
    (pooled.channelTotal (slotAt 0x1000) 4 2 Rgb.r = 337 ∧ pooled.channelTotal (slotAt 0x1000) 4 2 Rgb.g = 246 ∧
      pooled.channelTotal (slotAt 0x1000) 4 2 Rgb.b = 420) ∧
    pooled.channelTotal (slotAt 0x1000) 65535 0 Rgb.r = 0 := by
  refine ⟨⟨pooled_may_decode, legal_0E47, by decide, by decide, pooled_readable_around⟩, ?_, rfl⟩
  decide +kernel

/-- A slot of a 3 by 3 frame. -/
def slotWhite : Slot := { slotAt 0x1000 with w := 3, h := 3, size := 24 }

/-- Slot 0 of a white frame (95_test_vectors.md T6c), slot 1 of zeros. -/
def pooledWhite : State :=
  { pooled with
    slots := [slotWhite, { slotWhite with pa := 0x1100 }]
    mem := [(0x1000, 255), (0x1001, 255), (0x1002, 255), (0x1008, 255), (0x1009, 255), (0x100A, 255),
      (0x1010, 255), (0x1011, 255), (0x1012, 255)] }

theorem witness_WbalIsIdempotentOnUniformFrames :
    (pooledWhite.MayDecode 0 slotWhite ∧ LegalFormat slotWhite.fmt ∧ 3 ≤ slotWhite.w.toNat ∧
      3 ≤ slotWhite.h.toNat ∧
      ∀ x y, x < slotWhite.w.toNat → y < slotWhite.h.toNat →
        slotWhite.sampleAt x y + sampleBytes slotWhite.fmt ≤ 2 ^ 32 ∧ pooledWhite.rawSample slotWhite x y = 255) ∧
    (let d := { slotWhite with pa := 0x1100 }
     pooledWhite.MayDecode 1 d ∧
      ∀ x y, x < d.w.toNat → y < d.h.toNat →
        d.sampleAt x y + sampleBytes d.fmt ≤ 2 ^ 32 ∧ pooledWhite.rawSample d x y = 0) := by
  have h0 : ∀ x < 3, ∀ y < 3,
      slotWhite.sampleAt x y + sampleBytes slotWhite.fmt ≤ 2 ^ 32 ∧ pooledWhite.rawSample slotWhite x y = 255 := by
    decide
  have h1 : ∀ x < 3, ∀ y < 3,
      { slotWhite with pa := 0x1100 }.sampleAt x y + sampleBytes { slotWhite with pa := 0x1100 }.fmt ≤ 2 ^ 32 ∧
        pooledWhite.rawSample { slotWhite with pa := 0x1100 } x y = 0 := by
    decide
  exact ⟨⟨by unfold State.MayDecode; decide, by unfold LegalFormat; decide, by decide, by decide,
    fun x y hx hy => h0 x hx y hy⟩, by unfold State.MayDecode; decide, fun x y hx hy => h1 x hx y hy⟩

theorem witness_WbalLimitsOfItsArguments :
    (let d := { slotAt 0x1000 with w := 2 }
     { pooled with slots := [d] }.MayDecode 0 d ∧ LegalFormat d.fmt ∧ d.w.toNat < 3) ∧
    (pooled.MayDecode 0 (slotAt 0x1000) ∧ 3 ≤ (slotAt 0x1000).w.toNat ∧ 3 ≤ (slotAt 0x1000).h.toNat ∧
      65535 < (65536 : Word).toNat ∧ (65535 : Word).toNat ≤ 65535 ∧ (0 : Word).toNat = 0) := by
  unfold State.MayDecode LegalFormat
  decide

/-- Seeds that differ in bit 31 only; the smallest dimension. -/
theorem witness_GeneratorAndMapping :
    (0x80000001 : Word).toNat % 2 ^ 31 = (1 : Word).toNat % 2 ^ 31 ∧ 3 ≤ 3 ∧ wbMap 16838 3 = 1 ∧
    wbRand 1 = (0x41C67EA6, 16838) := by decide

theorem witness_IsqrtIsTheFloorRoot : 2 ^ 64 - 1 < 2 ^ 64 ∧ isqrt (2 ^ 64 - 1) = 2 ^ 32 - 1 ∧ isqrt 116828 = 341 := by
  decide +kernel

/-- The last control with min = default = max; a selector past the bank; each broken order. -/
theorem witness_KsetupConfiguresAControl :
    (∃ k : Fin 16, (15 : Byte).toNat = k ∧ (5 : Word).toInt ≤ (5 : Word).toInt) ∧ 16 ≤ (16 : Byte).toNat ∧
    (0xFFFFFFFF : Word).toInt < (0 : Word).toInt ∧ (4 : Word).toInt < (5 : Word).toInt :=
  ⟨⟨15, by decide⟩, by decide⟩

/-- Both bounds of control 3, the values next outside them, and the unsupported control 0. -/
theorem witness_KsetKgetKinfoOnAControl :
    let c := controlled.ctrls[3]
    c.supported = true ∧ (c.min.toInt ≤ (0xFFFFFFF8 : Word).toInt ∧ (0xFFFFFFF8 : Word).toInt ≤ c.max.toInt) ∧
    (c.min.toInt ≤ (7 : Word).toInt ∧ (7 : Word).toInt ≤ c.max.toInt) ∧
    (0xFFFFFFF7 : Word).toInt < c.min.toInt ∧ c.max.toInt < (8 : Word).toInt ∧
    controlled.ctrls[0].supported = false := by decide

/-- Both ends of the percentage, the value next above it, and an unsupported control. -/
theorem witness_KsetpMapsThePercent :
    let c := controlled.ctrls[3]
    (0 : Half).toNat ≤ 100 ∧ (100 : Half).toNat ≤ 100 ∧ c.supported = true ∧ c.min.toInt ≤ c.max.toInt ∧
    100 < (101 : Half).toNat ∧ controlled.ctrls[0].supported = false := by decide

end Sys2Proof.Tests
end

section
/-! PROOFS. isqrt: the bit search keeps the floor root between r and r + 2^k. -/

namespace Sys2Proof.Machine

/-- From a bracket r <= root < r + 2^k, k bits of search end at the floor root. -/
theorem isqrtFrom_floor {n k r : Nat} (lower : r * r ≤ n)
    (upper : n < (r + 2 ^ k) * (r + 2 ^ k)) :
    isqrtFrom n k r * isqrtFrom n k r ≤ n ∧ n < (isqrtFrom n k r + 1) * (isqrtFrom n k r + 1) := by
  induction k generalizing r with
  | zero => exact ⟨lower, upper⟩
  | succ k ih =>
    rw [isqrtFrom]
    split
    next bit_fits =>
      have bracket : r + 2 ^ k + 2 ^ k = r + 2 ^ (k + 1) := by omega
      exact ih bit_fits (bracket ▸ upper)
    next bit_passes => exact ih lower (Nat.lt_of_not_le bit_passes)

/-- Settles O57: below 2^64 the root lies in the first bracket [0, 2^32). -/
theorem isqrtIsTheFloorRoot : Obligations.IsqrtIsTheFloorRoot := by
  intro n hn
  exact isqrtFrom_floor (Nat.zero_le n) (by omega)

end Sys2Proof.Machine
end

section
/-! PROOFS. What an operation can do, said once: the relation Change, and that every operation keeps to it. -/

namespace Sys2Proof.Machine

/-! ### Rules for the shared operand forms -/

/-- What holds of a refusal and of the run on the named slot holds of a slot operation. -/
theorem withSlot_rule {P : Out → Prop} {s : State} {sel : Byte} {k : Slot → Out}
    (refused : P (refuse s)) (runs : ∀ d, s.slots[sel.toNat]? = some d → P (k d)) :
    P (withSlot s sel k) := by
  rcases withSlot_cases s sel k with ⟨-, h⟩ | ⟨d, hd, h⟩
  · exact h ▸ refused
  · exact h ▸ runs d hd

/-- What holds of a refusal and of the run on the named control holds of a control operation. -/
theorem withCtrl_rule {P : Out → Prop} {s : State} {sel : Byte} {k : Fin 16 → Ctrl → Out}
    (refused : P (refuse s)) (runs : ∀ j : Fin 16, sel.toNat = j → P (k j s.ctrls[j])) :
    P (withCtrl s sel k) := by
  rcases withCtrl_cases s sel k with ⟨-, h⟩ | ⟨hlt, h⟩
  · exact h ▸ refused
  · exact h ▸ runs ⟨sel.toNat, hlt⟩ rfl

/-- What holds of a refusal and of the run on a decodable slot holds of a decode operation. -/
theorem withDecodable_rule {P : Out → Prop} {s : State} {sel : Byte} {k : Slot → Out}
    (refused : P (refuse s))
    (runs : ∀ d, s.slots[sel.toNat]? = some d → decodable s sel.toNat = true → P (k d)) :
    P (withDecodable s sel k) := by
  rcases withDecodable_cases s sel k with h | ⟨d, hd, hdec, -, h⟩
  · exact h ▸ refused
  · exact h ▸ runs d hd hdec

/-- What holds of a refusal, a rejection and the run on a pixel of the frame holds of a pixel operation. -/
theorem withPixel_rule {P : Out → Prop} {s : State} {sel : Byte} {x y : Word} {k : Slot → Out}
    (refused : P (refuse s)) (rejected : P (reject s))
    (runs : ∀ d, s.slots[sel.toNat]? = some d → x.toNat < d.w.toNat → y.toNat < d.h.toNat → P (k d)) :
    P (withPixel s sel x y k) := by
  rcases withPixel_cases s sel x y k with h | h | ⟨d, hd, -, hx, hy, h⟩
  · exact h ▸ refused
  · exact h ▸ rejected
  · exact h ▸ runs d hd hx hy

/-- What holds of a refusal, of the run on the value read and of the stop holds of an operation that reads samples. -/
theorem onSamples_rule {α : Type} {P : Out → Prop} {s : State} {r : Except SampleStop α} {k : α → Out}
    (refused : P (refuse s)) (stops : r = .error .noAddress → P (.fault .noSuchAddress))
    (runs : ∀ a, r = .ok a → P (k a)) : P (onSamples s r k) := by
  rcases onSamples_cases s r k with ⟨a, ha, h⟩ | ⟨-, h⟩ | ⟨hr, h⟩
  · exact h ▸ runs a ha
  · exact h ▸ refused
  · exact h ▸ stops hr

/-! ### The changes an operation can make -/

/-- What operation i can do to a state besides answering: nothing, or the change of its rule under the rule's guards. -/
inductive Change : Instr → State → State → Prop
  | unchanged (i : Instr) (s : State) : Change i s s
  | alloc {count : Half} {s : State} (disabled : s.session = .disabled) (noPool : s.n = 0)
      (mode : s.modeValid = true) :
      Change (.alloc count) s
        { s with
          slots := (s.params.pa.toList.take (clampCount count)).map s.freshSlot
          inCur := 0
          outCur := 0 }
  | free {s : State} (disabled : s.session = .disabled) :
      Change .free s { s with slots := [], inCur := 0, outCur := 0 }
  | pub {slot : Byte} {seq : Word} {s : State} {d : Slot} (disabled : s.session = .disabled)
      (found : s.slots[slot.toNat]? = some d) (cursor : slot.toNat = s.inCur)
      (notFull : s.ringFull = false) :
      Change (.pub slot seq) s ((s.setSlot slot.toNat { d with seq := seq }).publishNext seq)
  | rel {s : State} (pool : s.n ≠ 0) (notEmpty : s.inCur ≠ s.outCur) :
      Change .rel s { s with outCur := (s.outCur + 1) % s.n }
  | mode {fmt : Half} {width height bpl : Word} {s : State} (disabled : s.session = .disabled)
      (noPool : s.n = 0) (format : fmtAccepted fmt = true)
      (geometry : geometryAccepted s.params ((bytesPerSample fmt).getD 0)
        width.toNat height.toNat bpl.toNat = true) :
      Change (.mode fmt width height bpl) s
        { s with
          modeW := width.setWidth 16
          modeH := height.setWidth 16
          modeBpl := bpl
          modeFmt := fmt
          modeValid := true }
  | start {callback : Bool} {s : State} (disabled : s.session ≠ .streaming) (pool : s.n ≠ 0)
      (mode : s.modeValid = true) :
      Change (.start callback) s
        { s.setDmaScratch.clearEngine with cbEn := callback, armed := true, session := .streaming }
  | stop {s : State} (streaming : s.session ≠ .disabled) :
      Change .stop s { s.clearEngine with armed := false, session := .disabled }
  | isrReturns (s : State) : Change .isr s (s.writeBackStatus s.status0 s.status1)
  | isrServices {s u v : State} {flags flags' : Word} (streaming : s.session = .streaming)
      (boundary : isrStep (isBoundary s.status0 s.status1) frameEnd
        (s.writeBackStatus s.status0 s.status1) flagServiced = .ok (u, flags))
      (frame : isrStep (isFrameStart s.status1) frameStart u flags = .ok (v, flags')) :
      Change .isr s v
  | conv888 {slot : Byte} {dst : Word} {s : State} {bs : List Byte}
      (free : s.DestinationFree dst.toNat bs.length) :
      Change (.conv888 slot dst) s (s.setMem (Memory.writeBytes s.mem dst.toNat bs))
  | conv565 {slot : Byte} {dst : Word} {s : State} {bs : List Byte}
      (free : s.DestinationFree dst.toNat bs.length) :
      Change (.conv565 slot dst) s (s.setMem (Memory.writeBytes s.mem dst.toNat bs))
  | wbal {slot : Byte} {samples rounds : Word} {s : State} {d : Slot} {r g b seed : Word}
      (found : s.slots[slot.toNat]? = some d) (decodes : decodable s slot.toNat = true) :
      Change (.wbal slot samples rounds) s (s.setSlot slot.toNat (d.balanced r g b seed))
  | ksetup {ctl : Byte} {min max step default : Word} {s : State} {k : Fin 16} (named : ctl.toNat = k)
      (lower : min.toInt ≤ default.toInt) (upper : default.toInt ≤ max.toInt) :
      Change (.ksetup ctl min max step default) s (s.setCtrl k ⟨true, min, max, step, default, default⟩)
  | kset {ctl : Byte} {value : Word} {s : State} {k : Fin 16} (named : ctl.toNat = k)
      (supported : s.ctrls[k].supported = true) (lower : s.ctrls[k].min.toInt ≤ value.toInt)
      (upper : value.toInt ≤ s.ctrls[k].max.toInt) :
      Change (.kset ctl value) s (s.setCtrl k { s.ctrls[k] with current := value })
  | ksetp {ctl : Byte} {percent : Half} {s : State} {k : Fin 16} (named : ctl.toNat = k)
      (supported : s.ctrls[k].supported = true) (upper : percent.toNat ≤ 100) :
      Change (.ksetp ctl percent) s (s.setCtrl k
        { s.ctrls[k] with current := BitVec.ofInt 32 (percentValue s.ctrls[k] percent.toNat) })

/-- Where o has a next state, it is a change operation i can make to s, with a response. -/
def KeepsToChange (i : Instr) (s : State) (o : Out) : Prop :=
  ∀ s', o = .next s' → ∃ t r, Change i s t ∧ s' = t.withResp (some r)

theorem keepsToChange_respond {i : Instr} {s t : State} (h : Change i s t) {st : Status}
    {r0 r1 r2 r3 : Word} : KeepsToChange i s (respond t st r0 r1 r2 r3) := by
  intro s' hs'
  cases hs'
  exact ⟨t, _, h, rfl⟩

theorem keepsToChange_answer (i : Instr) (s : State) {st : Status} {r0 r1 r2 r3 : Word} :
    KeepsToChange i s (respond s st r0 r1 r2 r3) :=
  keepsToChange_respond (.unchanged i s)

theorem keepsToChange_refuse (i : Instr) (s : State) : KeepsToChange i s (refuse s) :=
  keepsToChange_answer i s

theorem keepsToChange_reject (i : Instr) (s : State) : KeepsToChange i s (reject s) :=
  keepsToChange_answer i s

theorem keepsToChange_fault (i : Instr) (s : State) (f : Fault) : KeepsToChange i s (.fault f) := by
  intro s' hs'
  cases hs'

/-! ### Each operation keeps to its changes -/

theorem execAlloc_change (count : Half) (s : State) :
    KeepsToChange (.alloc count) s (execAlloc count s) := by
  unfold execAlloc
  split
  · exact keepsToChange_reject _ s
  next guard =>
    obtain ⟨disabled, noPool, mode⟩ : s.session = .disabled ∧ s.n = 0 ∧ s.modeValid = true := by
      simpa using guard
    split
    · exact keepsToChange_answer _ s
    · exact keepsToChange_respond (.alloc disabled noPool mode)

theorem execFree_change (s : State) : KeepsToChange .free s (execFree s) := by
  unfold execFree
  split
  · exact keepsToChange_refuse _ s
  · split
    · exact keepsToChange_reject _ s
    next disabled => exact keepsToChange_respond (.free (not_not.1 disabled))

theorem execTaf_change (s : State) : KeepsToChange .taf s (execTaf s) := by
  unfold execTaf
  split
  · exact keepsToChange_refuse _ s
  · split <;> exact keepsToChange_answer _ s

theorem Session.disabled_of_ne_streaming {x : Session} (h : x ≠ .streaming) : x = .disabled := by
  cases x with
  | disabled => rfl
  | streaming => exact absurd rfl h

theorem execPub_change (slot : Byte) (seq : Word) (s : State) :
    KeepsToChange (.pub slot seq) s (execPub slot seq s) := by
  refine withSlot_rule (keepsToChange_refuse _ s) fun d hd => ?_
  split
  · exact keepsToChange_refuse _ s
  next notStreaming =>
    split
    · exact keepsToChange_refuse _ s
    · split
      · exact keepsToChange_fault _ s _
      next t ht =>
        obtain ⟨cursor, notFull, rfl⟩ := ringPublish_eq_some ht
        exact keepsToChange_respond
          (.pub (Session.disabled_of_ne_streaming notStreaming) hd cursor notFull)

theorem execTar_change (s : State) : KeepsToChange .tar s (execTar s) := by
  unfold execTar
  split
  · exact keepsToChange_refuse _ s
  · split
    · exact keepsToChange_answer _ s
    · split
      · exact keepsToChange_fault _ s _
      · exact keepsToChange_answer _ s

theorem execRel_change (s : State) : KeepsToChange .rel s (execRel s) := by
  unfold execRel
  split
  · exact keepsToChange_refuse _ s
  next pool =>
    split
    · exact keepsToChange_refuse _ s
    next notEmpty =>
      exact keepsToChange_respond (.rel pool (by simpa [State.ringEmpty] using notEmpty))

theorem execMode_change (fmt : Half) (width height bpl : Word) (s : State) :
    KeepsToChange (.mode fmt width height bpl) s (execMode fmt width height bpl s) := by
  unfold execMode
  split
  · exact keepsToChange_reject _ s
  next guard =>
    obtain ⟨disabled, noPool⟩ : s.session = .disabled ∧ s.n = 0 := by simpa using guard
    split
    · exact keepsToChange_reject _ s
    next format =>
      split
      · exact keepsToChange_reject _ s
      next geometry =>
        exact keepsToChange_respond
          (.mode disabled noPool (Bool.of_not_eq_false format) (Bool.of_not_eq_false geometry))

theorem execStart_change (callback : Bool) (s : State) :
    KeepsToChange (.start callback) s (execStart callback s) := by
  unfold execStart
  split
  · exact keepsToChange_reject _ s
  next guard =>
    obtain ⟨disabled, pool, mode⟩ : s.session ≠ .streaming ∧ s.n ≠ 0 ∧ s.modeValid = true := by
      simpa using guard
    split
    · exact keepsToChange_answer _ s
    · exact keepsToChange_respond (.start disabled pool mode)

theorem execStop_change (s : State) : KeepsToChange .stop s (execStop s) := by
  unfold execStop
  split
  · exact keepsToChange_reject _ s
  next streaming => exact keepsToChange_respond (.stop streaming)

theorem execIsr_change (s : State) : KeepsToChange .isr s (execIsr s) := by
  unfold execIsr
  dsimp only
  split
  · exact keepsToChange_respond (.isrReturns s)
  next serviced =>
    have streaming : s.session = .streaming := not_not.1 (not_or.1 serviced).1
    split
    · exact keepsToChange_fault _ s _
    next u flags boundary =>
      split
      · exact keepsToChange_fault _ s _
      next v flags' frame => exact keepsToChange_respond (.isrServices streaming boundary frame)

/-- A conversion writes one list of bytes to a free destination, or nothing. -/
theorem convertFrame_change {i : Instr} {s : State} {slot : Byte} {dst : Word} {bpp : Nat}
    {bytesOf : Slot → Rgb → List Byte} (size : ∀ d p, (bytesOf d p).length = bpp)
    (writes : ∀ bs : List Byte, s.DestinationFree dst.toNat bs.length →
      Change i s (s.setMem (Memory.writeBytes s.mem dst.toNat bs))) :
    KeepsToChange i s (convertFrame slot dst bpp bytesOf s) := by
  refine withDecodable_rule (keepsToChange_refuse _ s) fun d _ _ => ?_
  dsimp only
  split
  · exact keepsToChange_refuse _ s
  next admitted =>
    refine onSamples_rule (keepsToChange_refuse _ s) (fun _ => keepsToChange_fault _ s _) fun bs hbs => ?_
    have length : bs.length = bpp * (d.w.toNat * d.h.toNat) := by
      rw [convertPixels_length (size d) hbs, raster_length]
    refine keepsToChange_respond (writes bs ?_)
    rw [length, ← destinationAdmitted_iff]
    simpa using admitted

theorem execWbal_change (slot : Byte) (samples rounds : Word) (s : State) :
    KeepsToChange (.wbal slot samples rounds) s (execWbal slot samples rounds s) := by
  refine withDecodable_rule (keepsToChange_refuse _ s) fun d hd hdec => ?_
  split
  · exact keepsToChange_reject _ s
  · refine onSamples_rule (keepsToChange_refuse _ s) (fun _ => keepsToChange_fault _ s _) fun r _ => ?_
    unfold wbFinish
    split <;> exact keepsToChange_respond (.wbal hd hdec)

theorem execKsetup_change (ctl : Byte) (min max step default : Word) (s : State) :
    KeepsToChange (.ksetup ctl min max step default) s (execKsetup ctl min max step default s) := by
  refine withCtrl_rule (keepsToChange_refuse _ s) fun k hk => ?_
  split
  next ordered => exact keepsToChange_respond (.ksetup hk ordered.1 ordered.2)
  · exact keepsToChange_refuse _ s

theorem execKset_change (ctl : Byte) (value : Word) (s : State) :
    KeepsToChange (.kset ctl value) s (execKset ctl value s) := by
  refine withCtrl_rule (keepsToChange_refuse _ s) fun k hk => ?_
  split
  · exact keepsToChange_reject _ s
  next supported =>
    split
    · exact keepsToChange_reject _ s
    next inside =>
      obtain ⟨lower, upper⟩ := not_or.1 inside
      exact keepsToChange_respond
        (.kset hk (Bool.of_not_eq_false supported) (not_lt.1 lower) (not_lt.1 upper))

theorem execKsetp_change (ctl : Byte) (percent : Half) (s : State) :
    KeepsToChange (.ksetp ctl percent) s (execKsetp ctl percent s) := by
  refine withCtrl_rule (keepsToChange_refuse _ s) fun k hk => ?_
  split
  · exact keepsToChange_reject _ s
  next upper =>
    split
    · exact keepsToChange_reject _ s
    next supported =>
      exact keepsToChange_respond (.ksetp hk (Bool.of_not_eq_false supported) (not_lt.1 upper))

theorem execKget_change (ctl : Byte) (s : State) : KeepsToChange (.kget ctl) s (execKget ctl s) := by
  refine withCtrl_rule (keepsToChange_refuse _ s) fun _ _ => ?_
  split
  · exact keepsToChange_reject _ s
  · exact keepsToChange_answer _ s

theorem execKinfo_change (ctl : Byte) (s : State) : KeepsToChange (.kinfo ctl) s (execKinfo ctl s) := by
  refine withCtrl_rule (keepsToChange_refuse _ s) fun _ _ => ?_
  split <;> exact keepsToChange_answer _ s

/-- Every operation keeps to its changes. -/
theorem exec_change (i : Instr) (s : State) : KeepsToChange i s (exec i s) := by
  cases i with
  | alloc count => exact execAlloc_change count s
  | free => exact execFree_change s
  | taf => exact execTaf_change s
  | pub slot seq => exact execPub_change slot seq s
  | tar => exact execTar_change s
  | rel => exact execRel_change s
  | desc slot | gains slot =>
    exact withSlot_rule (keepsToChange_refuse _ s) fun _ _ => keepsToChange_answer _ s
  | start callback => exact execStart_change callback s
  | stop => exact execStop_change s
  | isr => exact execIsr_change s
  | mode fmt width height bpl => exact execMode_change fmt width height bpl s
  | getpix slot x y | pix888 slot x y | pix565 slot x y =>
    exact withPixel_rule (keepsToChange_refuse _ s) (keepsToChange_reject _ s) fun _ _ _ _ =>
      onSamples_rule (keepsToChange_refuse _ s) (fun _ => keepsToChange_fault _ s _)
        fun _ _ => keepsToChange_answer _ s
  | conv888 slot dst => exact convertFrame_change (fun _ _ => rfl) fun _ free => .conv888 free
  | conv565 slot dst => exact convertFrame_change (fun _ _ => rfl) fun _ free => .conv565 free
  | wbal slot samples rounds => exact execWbal_change slot samples rounds s
  | ksetup ctl min max step default => exact execKsetup_change ctl min max step default s
  | kset ctl value => exact execKset_change ctl value s
  | ksetp ctl percent => exact execKsetp_change ctl percent s
  | kget ctl => exact execKget_change ctl s
  | kinfo ctl => exact execKinfo_change ctl s

/-! ### What a step can do -/

/-- What a step can do: nothing but a response, a change of the presented operation, an enabled receiver step, or the
environment's lines. -/
inductive StepEffect (s : State) : State → Prop
  | quiet (rest : List Event) (r : Option Response) :
      StepEffect s ({ s with inputs := rest }.withResp r)
  | operation {i : Instr} {p : Packet} {rest : List Event} {t : State} (r : Response)
      (next : s.inputs = .packet i.port p :: rest) (decoded : decode p = .instr i)
      (change : Change i { s with inputs := rest } t) : StepEffect s (t.withResp (some r))
  | receiver {r : RxStep} {rest : List Event} (next : s.inputs = .rx r :: rest)
      (enabled : rxEnabled r { s with inputs := rest } = true) :
      StepEffect s ((rxEffect r { s with inputs := rest }).withResp none)
  | environment {d : Draws} {rest : List Event} (next : s.inputs = .env d :: rest) :
      StepEffect s (runEnv d { s with inputs := rest })

/-- A step that has a next state has one of these effects. -/
theorem step_effect {s s' : State} (h : step s = .next s') : StepEffect s s' := by
  rcases step_cases s with ⟨-, hidle⟩ | ⟨e, rest, hin, hrefused | hruns | hrx | henv⟩
  · cases hidle.symm.trans h
    exact .quiet s.inputs none
  · obtain ⟨port, p, -, hp⟩ := hrefused
    cases hp.symm.trans h
    exact .quiet rest _
  · obtain ⟨p, i, rfl, decoded, hp⟩ := hruns
    obtain ⟨t, r, change, rfl⟩ := exec_change i _ s' (hp.symm.trans h)
    exact .operation r hin decoded change
  · obtain ⟨r, rfl, hr⟩ := hrx
    cases hr.symm.trans h
    rcases runRx_cases r { s with inputs := rest } with ⟨enabled, hrun⟩ | ⟨-, hrun⟩
    · exact hrun ▸ .receiver hin enabled
    · exact hrun ▸ .quiet rest none
  · obtain ⟨d, rfl, hd⟩ := henv
    cases hd.symm.trans h
    exact .environment hin

end Sys2Proof.Machine
end

section
/-! PROOFS. The invariant along a step: one rule per state operation, then one per change of an operation. -/

namespace Sys2Proof.Machine

/-! ### What the invariant says of a state -/

theorem State.Inv.inCur_lt {s : State} (hs : s.Inv) (pool : s.n ≠ 0) : s.inCur < s.n := by
  rcases hs.ring with ⟨noPool, -, -⟩ | ⟨-, -, hin, -⟩
  · exact absurd noPool pool
  · exact hin

theorem State.Inv.outCur_lt {s : State} (hs : s.Inv) (pool : s.n ≠ 0) : s.outCur < s.n := by
  rcases hs.ring with ⟨noPool, -, -⟩ | ⟨-, -, -, hout⟩
  · exact absurd noPool pool
  · exact hout

theorem State.Inv.not_attached {s : State} (hs : s.Inv) (disabled : s.session = .disabled) :
    s.attached = none := (hs.engine.1 disabled).2.1

theorem State.Inv.pool_of_streaming {s : State} (hs : s.Inv) (streaming : s.session = .streaming) :
    s.n ≠ 0 := (hs.engine.2 streaming).2.1

/-- Slot IN of a pool exists. -/
theorem State.Inv.slot_inCur {s : State} (hs : s.Inv) (pool : s.n ≠ 0) :
    ∃ d, s.slots[s.inCur]? = some d := ⟨_, List.getElem?_eq_getElem (hs.inCur_lt pool)⟩

/-- Slot OUT of a pool exists. -/
theorem State.Inv.slot_outCur {s : State} (hs : s.Inv) (pool : s.n ≠ 0) :
    ∃ d, s.slots[s.outCur]? = some d := ⟨_, List.getElem?_eq_getElem (hs.outCur_lt pool)⟩

theorem ringFull_eq_false_iff (s : State) : s.ringFull = false ↔ (s.inCur + 1) % s.n ≠ s.outCur := by
  simp [State.ringFull]

theorem State.pool_of_slot {s : State} {i : Nat} {d : Slot} (hd : s.slots[i]? = some d) : s.n ≠ 0 :=
  Nat.ne_of_gt (Nat.zero_lt_of_lt (List.getElem?_eq_some_iff.1 hd).1)

/-! ### Updates of what the invariant does not mention -/

theorem State.Inv.withResp {s : State} (hs : s.Inv) (r : Option Response) : (s.withResp r).Inv :=
  ⟨hs.ring, hs.engine, hs.attached, hs.status, hs.mode, hs.slots, hs.controls, hs.memory⟩

theorem State.Inv.withInputs {s : State} (hs : s.Inv) (rest : List Event) :
    State.Inv { s with inputs := rest } :=
  ⟨hs.ring, hs.engine, hs.attached, hs.status, hs.mode, hs.slots, hs.controls, hs.memory⟩

theorem State.Inv.runEnv {s : State} (hs : s.Inv) (d : Draws) : (runEnv d s).Inv :=
  ⟨hs.ring, hs.engine, hs.attached, hs.status, hs.mode, hs.slots, hs.controls, hs.memory⟩

theorem State.Inv.withSeq {s : State} (hs : s.Inv) (q : Word) : State.Inv { s with seq := q } :=
  ⟨hs.ring, hs.engine, hs.attached, hs.status, hs.mode, hs.slots, hs.controls, hs.memory⟩

theorem State.Inv.setDma {s : State} (hs : s.Inv) (start : Word) (size : Nat) :
    (s.setDma start size).Inv :=
  ⟨hs.ring, hs.engine, hs.attached, hs.status, hs.mode, hs.slots, hs.controls, hs.memory⟩

theorem State.Inv.setDmaScratch {s : State} (hs : s.Inv) : s.setDmaScratch.Inv := hs.setDma _ _

/-! ### Status bits, the frame flag, the attached slot and the session -/

theorem or_lt_four {a b : Word} (ha : a.toNat < 4) (hb : b.toNat < 4) : (a ||| b).toNat < 4 := by
  rw [BitVec.toNat_or]
  exact Nat.or_lt_two_pow (n := 2) ha hb

theorem bitIf_lt_four (cond : Bool) {bit : Word} (h : bit.toNat < 4) : (bitIf cond bit).toNat < 4 := by
  cases cond
  · show (0#32).toNat < 4
    decide
  · exact h

theorem writeOneToClear_lt_four {a : Word} (v : Word) (ha : a.toNat < 4) :
    (writeOneToClear a v).toNat < 4 := by
  rw [writeOneToClear, BitVec.toNat_and]
  exact Nat.lt_of_le_of_lt Nat.and_le_left ha

theorem writeOneToClear_zero (v : Word) : writeOneToClear 0#32 v = 0#32 := by
  simp [writeOneToClear]

/-- While Streaming, defined status bits can be latched. -/
theorem State.Inv.latch {s : State} (hs : s.Inv) (streaming : s.session = .streaming) {b0 b1 : Word}
    (h0 : b0.toNat < 4) (h1 : b1.toNat < 4) : (s.latch b0 b1).Inv where
  ring := hs.ring
  engine := ⟨fun disabled => absurd (streaming.symm.trans disabled) (by decide), hs.engine.2⟩
  attached := hs.attached
  status := ⟨or_lt_four hs.status.1 h0, or_lt_four hs.status.2 h1⟩
  mode := hs.mode
  slots := hs.slots
  controls := hs.controls
  memory := hs.memory

theorem State.Inv.withFrameActive {s : State} (hs : s.Inv) (streaming : s.session = .streaming)
    (b : Bool) : State.Inv { s with frameActive := b } where
  ring := hs.ring
  engine := ⟨fun disabled => absurd (streaming.symm.trans disabled) (by decide), hs.engine.2⟩
  attached := hs.attached
  status := hs.status
  mode := hs.mode
  slots := hs.slots
  controls := hs.controls
  memory := hs.memory

theorem State.Inv.writeBackStatus {s : State} (hs : s.Inv) (v0 v1 : Word) :
    (s.writeBackStatus v0 v1).Inv where
  ring := hs.ring
  engine := by
    refine ⟨fun disabled => ?_, hs.engine.2⟩
    obtain ⟨armed, attached, status0, status1, frame⟩ := hs.engine.1 disabled
    exact ⟨armed, attached, by simp [status0, writeOneToClear_zero],
      by simp [status1, writeOneToClear_zero], frame⟩
  attached := hs.attached
  status := ⟨writeOneToClear_lt_four v0 hs.status.1, writeOneToClear_lt_four v1 hs.status.2⟩
  mode := hs.mode
  slots := hs.slots
  controls := hs.controls
  memory := hs.memory

theorem State.Inv.detach {s : State} (hs : s.Inv) : State.Inv { s with attached := none } where
  ring := hs.ring
  engine := by
    refine ⟨fun disabled => ?_, hs.engine.2⟩
    obtain ⟨armed, -, status⟩ := hs.engine.1 disabled
    exact ⟨armed, rfl, status⟩
  attached := fun _ h => nomatch h
  status := hs.status
  mode := hs.mode
  slots := hs.slots
  controls := hs.controls
  memory := hs.memory

/-- While Streaming, slot IN of a ring that is not full can be attached (42_capture.md R159). -/
theorem State.Inv.attachIn {s : State} (hs : s.Inv) (streaming : s.session = .streaming)
    (notFull : s.ringFull = false) : State.Inv { s with attached := some s.inCur } where
  ring := hs.ring
  engine := ⟨fun disabled => absurd (streaming.symm.trans disabled) (by decide), hs.engine.2⟩
  attached := by
    rintro i ⟨⟩
    exact ⟨rfl, (ringFull_eq_false_iff s).1 notFull⟩
  status := hs.status
  mode := hs.mode
  slots := hs.slots
  controls := hs.controls
  memory := hs.memory

theorem State.Inv.start {s : State} (hs : s.Inv) (pool : s.n ≠ 0) (mode : s.modeValid = true)
    (callback : Bool) :
    State.Inv { s.clearEngine with cbEn := callback, armed := true, session := .streaming } where
  ring := hs.ring
  engine := ⟨fun disabled => (nomatch disabled), fun _ => ⟨rfl, pool, mode⟩⟩
  attached := fun _ h => nomatch h
  status := ⟨by simp, by simp⟩
  mode := hs.mode
  slots := hs.slots
  controls := hs.controls
  memory := hs.memory

theorem State.Inv.stop {s : State} (hs : s.Inv) :
    State.Inv { s.clearEngine with armed := false, session := .disabled } where
  ring := hs.ring
  engine := ⟨fun _ => ⟨rfl, rfl, rfl, rfl, rfl⟩, fun streaming => nomatch streaming⟩
  attached := fun _ h => nomatch h
  status := ⟨by simp, by simp⟩
  mode := hs.mode
  slots := hs.slots
  controls := hs.controls
  memory := hs.memory

/-! ### Slots and cursors -/

/-- Two descriptors of one buffer: what the invariant says of a slot. -/
structure Slot.SameBuffer (d e : Slot) : Prop where
  pa   : e.pa = d.pa
  size : e.size = d.size
  w    : e.w = d.w
  h    : e.h = d.h
  bpl  : e.bpl = d.bpl
  fmt  : e.fmt = d.fmt

/-- A slot can be rewritten with a descriptor of the same buffer. -/
theorem State.Inv.setSlot {s : State} (hs : s.Inv) {i : Nat} {d : Slot}
    (hd : s.slots[i]? = some d) (e : Slot) (same : d.SameBuffer e) : (s.setSlot i e).Inv where
  ring := by simpa [State.RingOk] using hs.ring
  engine := by simpa [State.EngineOk] using hs.engine
  attached := by simpa [State.AttachedOk] using hs.attached
  status := hs.status
  mode := hs.mode
  slots := by
    refine ⟨by simpa using hs.slots.1, fun j x hx => ?_⟩
    rw [State.setSlot_slots, List.getElem?_set] at hx
    split at hx
    next hij =>
      subst hij
      have he : x = e := by
        split at hx
        · exact (Option.some.inj hx).symm
        · cases hx
      subst he
      simpa [same.pa, same.size, same.w, same.h, same.bpl, same.fmt] using hs.slots.2 i d hd
    next => exact hs.slots.2 j x hx
  controls := hs.controls
  memory := hs.memory

/-- The descriptor stamped at a frame end is of the same buffer: slots have the mode's geometry. -/
theorem State.Inv.stamped_sameBuffer {s : State} (hs : s.Inv) {i : Nat} {d : Slot}
    (hd : s.slots[i]? = some d) : d.SameBuffer (s.stamped d) := by
  obtain ⟨-, -, w, h, bpl, fmt⟩ := hs.slots.2 i d hd
  exact ⟨rfl, rfl, w.symm, h.symm, bpl.symm, fmt.symm⟩

/-- IN can move on when no slot is attached. -/
theorem State.Inv.publishNext {s : State} (hs : s.Inv) (pool : s.n ≠ 0) (free : s.attached = none)
    (q : Word) : (s.publishNext q).Inv where
  ring := by
    rcases hs.ring with ⟨noPool, -, -⟩ | ⟨three, twenty, hin, hout⟩
    · exact absurd noPool pool
    · exact .inr ⟨three, twenty, Nat.mod_lt _ (by omega), hout⟩
  engine := hs.engine
  attached := fun i h => by simp [free] at h
  status := hs.status
  mode := hs.mode
  slots := hs.slots
  controls := hs.controls
  memory := hs.memory

/-- OUT can move on when the ring is not empty: IN does not come to meet an attached slot. -/
theorem State.Inv.release {s : State} (hs : s.Inv) (pool : s.n ≠ 0) (notEmpty : s.inCur ≠ s.outCur) :
    State.Inv { s with outCur := (s.outCur + 1) % s.n } where
  ring := by
    rcases hs.ring with ⟨noPool, -, -⟩ | ⟨three, twenty, hin, hout⟩
    · exact absurd noPool pool
    · exact .inr ⟨three, twenty, hin, Nat.mod_lt _ (by omega)⟩
  engine := hs.engine
  attached := by
    intro i hi
    refine ⟨(hs.attached i hi).1, fun meet => notEmpty ?_⟩
    have meet : s.inCur + 1 ≡ s.outCur + 1 [MOD s.n] := meet
    exact Nat.ModEq.eq_of_lt_of_lt (Nat.ModEq.add_right_cancel' 1 meet) (hs.inCur_lt pool)
      (hs.outCur_lt pool)
  status := hs.status
  mode := hs.mode
  slots := hs.slots
  controls := hs.controls
  memory := hs.memory

theorem State.Inv.dropPool {s : State} (hs : s.Inv) (disabled : s.session = .disabled) :
    State.Inv { s with slots := [], inCur := 0, outCur := 0 } where
  ring := .inl ⟨rfl, rfl, rfl⟩
  engine := ⟨hs.engine.1, fun streaming => absurd (disabled.symm.trans streaming) (by decide)⟩
  attached := fun i h => absurd ((hs.not_attached disabled).symm.trans h) (by simp)
  status := hs.status
  mode := hs.mode
  slots := ⟨fun pool => absurd rfl pool, fun i d hd => by simp at hd⟩
  controls := hs.controls
  memory := hs.memory

/-! ### A new pool -/

theorem clampCount_bounds (count : Half) : 3 ≤ clampCount count ∧ clampCount count ≤ 20 := by
  unfold clampCount Config.minSlots Config.maxSlots
  omega

/-- The pool of ALLOC has the clamped number of slots. -/
theorem freshPool_length (s : State) (count : Half) :
    ((s.params.pa.toList.take (clampCount count)).map s.freshSlot).length = clampCount count := by
  have := clampCount_bounds count
  simp
  omega

theorem State.Inv.newPool {s : State} (hs : s.Inv) (disabled : s.session = .disabled)
    (mode : s.modeValid = true) (count : Half) :
    State.Inv { s with
      slots := (s.params.pa.toList.take (clampCount count)).map s.freshSlot
      inCur := 0
      outCur := 0 } where
  ring := by
    have := clampCount_bounds count
    refine .inr ?_
    simp only [State.n, freshPool_length]
    omega
  engine := ⟨hs.engine.1, fun streaming => absurd (disabled.symm.trans streaming) (by decide)⟩
  attached := fun i h => absurd ((hs.not_attached disabled).symm.trans h) (by simp)
  status := hs.status
  mode := hs.mode
  slots := by
    obtain ⟨-, -, -, -, -, -, fits⟩ := hs.mode mode
    refine ⟨fun _ => mode, fun i d hd => ?_⟩
    rw [List.getElem?_map, Option.map_eq_some_iff] at hd
    obtain ⟨pa, hpa, rfl⟩ := hd
    refine ⟨?_, word32_toNat_of_lt fits, rfl, rfl, rfl, rfl⟩
    rw [List.getElem?_take] at hpa
    split at hpa
    · exact hpa
    · cases hpa
  controls := hs.controls
  memory := hs.memory

/-! ### The mode registers -/

theorem fmtDepth_eq (fmt : Half) : fmtDepth fmt = fmt.toNat % 16 + 1 := by
  simp [fmtDepth]

theorem bytesPerSample_eq_some_iff (fmt : Half) (bps : Nat) :
    bytesPerSample fmt = some bps ↔ LegalFormat fmt ∧ bps = sampleBytes fmt := by
  unfold bytesPerSample LegalFormat sampleBytes fmtPacked
  rw [fmtDepth_eq]
  cases fmt.getLsbD 12 with
  | true => simp
  | false =>
    by_cases h8 : fmt.toNat % 16 = 7
    · simp [h8, eq_comm]
    · by_cases h10 : fmt.toNat % 16 = 9
      · simp [h10, eq_comm]
      · simp [h8, h10]

/-- An accepted format is a legal one with bits 15:13 zero (42_capture.md R150). -/
theorem fmtAccepted_iff (fmt : Half) :
    fmtAccepted fmt = true ↔ LegalFormat fmt ∧ fmt.toNat < 2 ^ 13 := by
  have high : (fmt.extractLsb' 13 3 == 0#3) = true ↔ fmt.toNat < 2 ^ 13 := by
    rw [beq_iff_eq, ← BitVec.toNat_inj, BitVec.extractLsb'_toNat, BitVec.toNat_ofNat,
      Nat.shiftRight_eq_div_pow]
    omega
  rw [fmtAccepted, Bool.and_eq_true, high, Option.isSome_iff_exists, and_comm]
  simp [bytesPerSample_eq_some_iff]

theorem geometryAccepted_iff (p : Params) (bps width height bpl : Nat) :
    geometryAccepted p bps width height bpl = true ↔
      (1 ≤ width ∧ width ≤ 65535) ∧ (1 ≤ height ∧ height ≤ 65535) ∧
        width * bps ≤ bpl ∧ bpl % p.lineAlign = 0 ∧ height * bpl < 2 ^ 32 := by
  simp [geometryAccepted, and_assoc]

theorem State.Inv.recordMode {s : State} (hs : s.Inv) (noPool : s.n = 0)
    {fmt : Half} {width height bpl : Word} (format : fmtAccepted fmt = true)
    (geometry : geometryAccepted s.params ((bytesPerSample fmt).getD 0)
      width.toNat height.toNat bpl.toNat = true) :
    State.Inv { s with
      modeW := width.setWidth 16
      modeH := height.setWidth 16
      modeBpl := bpl
      modeFmt := fmt
      modeValid := true } where
  ring := hs.ring
  engine := ⟨hs.engine.1, fun streaming => absurd noPool (hs.pool_of_streaming streaming)⟩
  attached := hs.attached
  status := hs.status
  mode := by
    obtain ⟨legal, small⟩ := (fmtAccepted_iff fmt).1 format
    rw [(bytesPerSample_eq_some_iff fmt _).2 ⟨legal, rfl⟩] at geometry
    obtain ⟨⟨w1, w2⟩, ⟨h1, h2⟩, line, aligned, fits⟩ := (geometryAccepted_iff ..).1 geometry
    have hw : (width.setWidth 16).toNat = width.toNat := by
      rw [BitVec.toNat_setWidth]
      omega
    have hh : (height.setWidth 16).toNat = height.toNat := by
      rw [BitVec.toNat_setWidth]
      omega
    intro _
    exact ⟨legal, small, hw ▸ w1, hh ▸ h1, hw ▸ line, aligned, hh ▸ fits⟩
  slots := by
    have noSlot : s.slots = [] := List.length_eq_zero_iff.1 noPool
    exact ⟨fun _ => rfl, fun i d hd => by simp [noSlot] at hd⟩
  controls := hs.controls
  memory := hs.memory

/-! ### Controls -/

/-- What the invariant says of a configured control (45_control.md R235). -/
def Ctrl.InRange (c : Ctrl) : Prop :=
  c.min.toInt ≤ c.default.toInt ∧ c.default.toInt ≤ c.max.toInt ∧
    c.min.toInt ≤ c.current.toInt ∧ c.current.toInt ≤ c.max.toInt

theorem State.Inv.inRange {s : State} (hs : s.Inv) {k : Fin 16} (supported : s.ctrls[k].supported = true) :
    s.ctrls[k].InRange := hs.controls k supported

theorem State.Inv.setCtrl {s : State} (hs : s.Inv) (k : Fin 16) {c : Ctrl} (inRange : c.InRange) :
    (s.setCtrl k c).Inv where
  ring := hs.ring
  engine := hs.engine
  attached := hs.attached
  status := hs.status
  mode := hs.mode
  slots := hs.slots
  controls := by
    intro j supported
    by_cases hjk : j = k
    · subst hjk
      simpa [Ctrl.InRange] using inRange
    · have other : (s.setCtrl k c).ctrls[j] = s.ctrls[j] := by
        simp [State.setCtrl, Fin.val_ne_of_ne (Ne.symm hjk)]
      rw [other] at supported ⊢
      exact hs.controls j supported
  memory := hs.memory

/-- A percentage of a range lies in the range (45_control.md R232). -/
theorem percentValue_bounds {c : Ctrl} (ordered : c.min.toInt ≤ c.max.toInt) {p : Nat} (hp : p ≤ 100) :
    c.min.toInt ≤ percentValue c p ∧ percentValue c p ≤ c.max.toInt := by
  have width : 0 ≤ c.max.toInt - c.min.toInt := by omega
  have lower : 0 ≤ (c.max.toInt - c.min.toInt) * (p : Int) := Int.mul_nonneg width (by omega)
  have upper : (c.max.toInt - c.min.toInt) * (p : Int) ≤ (c.max.toInt - c.min.toInt) * 100 :=
    Int.mul_le_mul_of_nonneg_left (by omega) width
  rw [percentValue, Int.tdiv_eq_ediv_of_nonneg lower]
  omega

/-- A number between two words is stored exactly. -/
theorem toInt_ofInt_of_between {a b : Word} {v : Int} (ha : a.toInt ≤ v) (hb : v ≤ b.toInt) :
    (BitVec.ofInt 32 v).toInt = v := by
  have := BitVec.le_toInt a
  have := BitVec.toInt_lt (x := b)
  rw [BitVec.toInt_ofInt, Int.bmod_eq_of_le] <;> omega

theorem Ctrl.InRange.atPercent {c : Ctrl} (hc : c.InRange) {p : Nat} (hp : p ≤ 100) :
    Ctrl.InRange { c with current := BitVec.ofInt 32 (percentValue c p) } := by
  obtain ⟨lower, upper, -, -⟩ := hc
  obtain ⟨hmin, hmax⟩ := percentValue_bounds (lower.trans upper) hp
  have stored := toInt_ofInt_of_between hmin hmax
  exact ⟨lower, upper, stored.symm ▸ hmin, stored.symm ▸ hmax⟩

/-! ### Memory -/

theorem State.Inv.setMem {s : State} (hs : s.Inv) {m : Memory} (wf : Memory.wf m)
    (inSpace : ∀ c ∈ m, c.1 < 2 ^ 32) : (s.setMem m).Inv :=
  ⟨hs.ring, hs.engine, hs.attached, hs.status, hs.mode, hs.slots, hs.controls, wf, inSpace⟩

theorem State.Inv.storeByte {s : State} (hs : s.Inv) (a : Word) (b : Byte) :
    (s.setMem (Memory.write s.mem a.toNat b)).Inv := by
  refine hs.setMem (Memory.write_wf _ b hs.memory.1) fun c hc => ?_
  rcases Memory.mem_write hc with old | ⟨rfl, -⟩
  · exact hs.memory.2 c old
  · exact a.isLt

theorem State.Inv.storeBytes {s : State} (hs : s.Inv) {a : Nat} {bs : List Byte}
    (free : s.DestinationFree a bs.length) : (s.setMem (Memory.writeBytes s.mem a bs)).Inv := by
  refine hs.setMem (Memory.writeBytes_wf _ bs hs.memory.1) fun c hc => ?_
  rcases Memory.mem_writeBytes hc with old | ⟨-, below⟩
  · exact hs.memory.2 c old
  · exact Nat.lt_of_lt_of_le below free.1

/-! ### The interrupt handler -/

/-- What holds before a conditional step of the handler and after its effect holds after the step. -/
theorem isrStep_rule {P : State → Prop} {c : Bool} {f : State → Except Fault (State × Word)}
    {s t : State} {flags g : Word} (keeps : ∀ {t g}, f s = .ok (t, g) → P t)
    (h : isrStep c f s flags = .ok (t, g)) (hs : P s) : P t := by
  rcases isrStep_cases h with ⟨-, rfl, -⟩ | ⟨k, -, hf, -⟩
  · exact hs
  · exact keeps hf

theorem frameEnd_session {s t : State} {g : Word} (h : frameEnd s = .ok (t, g)) :
    t.session = s.session := by
  rcases frameEnd_cases h with ⟨-, rfl, -⟩ | ⟨d, -, -, -, rfl, -⟩ <;> rfl

theorem frameEnd_inv {s t : State} {g : Word} (hs : s.Inv) (h : frameEnd s = .ok (t, g)) : t.Inv := by
  rcases frameEnd_cases h with ⟨-, rfl, -⟩ | ⟨d, -, hd, -, rfl, -⟩
  · exact hs.withSeq _
  · have stamped := hs.detach.setSlot hd _ (hs.stamped_sameBuffer hd)
    have pool := State.pool_of_slot hd
    exact (stamped.publishNext ((State.setSlot_n ..).trans_ne pool) rfl s.seq).withSeq _

theorem frameStart_inv {s t : State} {g : Word} (hs : s.Inv) (streaming : s.session = .streaming)
    (h : frameStart s = .ok (t, g)) : t.Inv := by
  rcases frameStart_cases h with ⟨-, rfl, -⟩ | ⟨-, -, rfl, -⟩ | ⟨d, -, notFull, hd, rfl, -⟩
  · exact hs
  · exact hs.setDmaScratch
  · have ticked := (hs.attachIn streaming notFull).setSlot hd { d with ts := s.draws.tick }
      ⟨rfl, rfl, rfl, rfl, rfl, rfl⟩
    exact ticked.setDma d.pa d.size.toNat

/-- After the boundary step of a serviced interrupt the invariant holds and the session still streams. -/
theorem frameEnd_step_inv {c : Bool} {s t : State} {flags g : Word} (hs : s.Inv)
    (streaming : s.session = .streaming) (h : isrStep c frameEnd s flags = .ok (t, g)) :
    t.Inv ∧ t.session = .streaming :=
  isrStep_rule (P := fun u => u.Inv ∧ u.session = .streaming)
    (fun hf => ⟨frameEnd_inv hs hf, (frameEnd_session hf).trans streaming⟩) h ⟨hs, streaming⟩

/-! ### Every change, every receiver step, every step -/

/-- Every change of an operation keeps the invariant. -/
theorem Change.inv {i : Instr} {s t : State} (change : Change i s t) (hs : s.Inv) : t.Inv := by
  cases change with
  | unchanged => exact hs
  | alloc disabled _ mode => exact hs.newPool disabled mode _
  | free disabled => exact hs.dropPool disabled
  | @pub _ seq _ d disabled found _ _ =>
    have numbered := hs.setSlot found { d with seq := seq } ⟨rfl, rfl, rfl, rfl, rfl, rfl⟩
    have pool := State.pool_of_slot found
    exact numbered.publishNext ((State.setSlot_n ..).trans_ne pool) (hs.not_attached disabled) seq
  | rel pool notEmpty => exact hs.release pool notEmpty
  | mode _ noPool format geometry => exact hs.recordMode noPool format geometry
  | start _ pool mode => exact hs.setDmaScratch.start pool mode _
  | stop => exact hs.stop
  | isrReturns => exact hs.writeBackStatus _ _
  | isrServices streaming boundary frame =>
    obtain ⟨inv, streams⟩ := frameEnd_step_inv (hs.writeBackStatus _ _) streaming boundary
    exact isrStep_rule (frameStart_inv inv streams) frame inv
  | conv888 free | conv565 free => exact hs.storeBytes free
  | wbal found _ => exact hs.setSlot found _ ⟨rfl, rfl, rfl, rfl, rfl, rfl⟩
  | ksetup _ lower upper => exact hs.setCtrl _ ⟨lower, upper, lower, upper⟩
  | kset _ supported lower upper =>
    obtain ⟨hmin, hmax, -, -⟩ := hs.inRange supported
    exact hs.setCtrl _ ⟨hmin, hmax, lower, upper⟩
  | ksetp _ supported upper => exact hs.setCtrl _ ((hs.inRange supported).atPercent upper)

/-- A receiver step is enabled only while Streaming. -/
theorem rxEnabled_streaming {r : RxStep} {s : State} (h : rxEnabled r s = true) :
    s.session = .streaming := by
  unfold rxEnabled at h
  rw [Bool.and_eq_true] at h
  exact eq_of_beq h.1

theorem rxEffect_inv {r : RxStep} {s : State} (hs : s.Inv) (enabled : rxEnabled r s = true) :
    (rxEffect r s).Inv := by
  have streaming := rxEnabled_streaming enabled
  have rxa : bitRxa.toNat < 4 := by decide
  have pkt : bitPkt.toNat < 4 := by decide
  have feb : bitFe.toNat < 4 := by decide
  cases r with
  | fs => exact (hs.latch streaming rxa (by decide)).withFrameActive streaming true
  | data a b => exact hs.storeByte a b
  | active => exact hs.latch streaming rxa (by decide)
  | fe fe p =>
    exact (hs.latch streaming (or_lt_four rxa (bitIf_lt_four p pkt)) (bitIf_lt_four fe feb)).withFrameActive
      streaming false
  | extra x p fe =>
    exact hs.latch streaming (or_lt_four (bitIf_lt_four x rxa) (bitIf_lt_four p pkt)) (bitIf_lt_four fe feb)

/-- Every step keeps the invariant. -/
theorem step_inv {s s' : State} (hs : s.Inv) (h : step s = .next s') : s'.Inv := by
  cases step_effect h with
  | quiet rest r => exact (hs.withInputs rest).withResp r
  | operation r _ _ change => exact (change.inv (hs.withInputs _)).withResp _
  | receiver _ enabled => exact (rxEffect_inv (hs.withInputs _) enabled).withResp none
  | environment => exact (hs.withInputs _).runEnv _

end Sys2Proof.Machine
end

section
/-! PROOFS. No step stops while the pixel buffers end at or below 2^32, and the launch premises carry along a run. -/

namespace Sys2Proof.Machine

/-! ### Samples inside the address space -/

/-- A read that stopped, if it did, stopped at a container's value and not past the address space. -/
def Addressed {α : Type} (r : Except SampleStop α) : Prop := r ≠ .error .noAddress

theorem addressed_ok {α : Type} (a : α) : Addressed (.ok a : Except SampleStop α) := nofun

theorem addressed_bind {α β : Type} {r : Except SampleStop α} {f : α → Except SampleStop β}
    (hr : Addressed r) (hf : ∀ a, Addressed (f a)) : Addressed (r >>= f) := by
  cases r with
  | ok a => exact hf a
  | error e =>
    intro h
    cases h
    exact hr rfl

/-- Every sample of the frame of d lies in the address space. -/
def FrameAddressed (m : Memory) (d : Slot) : Prop :=
  ∀ x y, x < d.w.toNat → y < d.h.toNat → Addressed (sample m d x y)

/-- The container of a pixel of the frame ends inside the buffer (20_memory.md R71 to R73). -/
theorem sampleAddress_le {d : Slot} {bps x y : Nat} (line : d.w.toNat * bps ≤ d.bpl.toNat)
    (hx : x < d.w.toNat) (hy : y < d.h.toNat) :
    sampleAddress d bps x y + bps ≤ d.pa.toNat + d.h.toNat * d.bpl.toNat := by
  have row : (x + 1) * bps ≤ d.bpl.toNat := (Nat.mul_le_mul_right bps hx).trans line
  have rows : (y + 1) * d.bpl.toNat ≤ d.h.toNat * d.bpl.toNat := Nat.mul_le_mul_right _ hy
  rw [Nat.succ_mul] at row rows
  unfold sampleAddress
  omega

/-- The frame of a slot lies in its buffer, and so in the address space when the buffer does. -/
theorem State.Inv.frameAddressed {s : State} (hs : s.Inv) (space : s.BuffersInSpace) {i : Nat} {d : Slot}
    (hd : s.slots[i]? = some d) : FrameAddressed s.mem d := by
  intro x y hx hy stops
  obtain ⟨-, size, w, h, bpl, fmt⟩ := hs.slots.2 i d hd
  obtain ⟨legal, -, -, -, line, -, -⟩ := hs.mode (hs.slots.1 (State.pool_of_slot hd))
  have hbps : bytesPerSample d.fmt = some (sampleBytes d.fmt) :=
    (bytesPerSample_eq_some_iff _ _).2 ⟨fmt ▸ legal, rfl⟩
  have line : d.w.toNat * sampleBytes d.fmt ≤ d.bpl.toNat := by
    rw [w, bpl, fmt]
    exact line
  have inBuffer := sampleAddress_le line hx hy
  have inSpace := space d (List.mem_of_getElem? hd)
  rw [h, bpl, ← size] at inBuffer
  rcases sample_cases s.mem d x y _ hbps with ⟨-, value⟩ | ⟨past, -⟩
  · rw [value] at stops
    split at stops <;> cases stops
  · omega

section
variable {m : Memory} {d : Slot} {x y : Nat}

/-! A decode in the frame reads addressed samples only. -/

theorem orthogonal_addressed (frame : FrameAddressed m d) (hx : x + 1 < d.w.toNat) (hy : y + 1 < d.h.toNat) :
    Addressed (orthogonal m d x y) :=
  addressed_bind (frame _ _ (by omega) (by omega)) fun _ =>
    addressed_bind (frame _ _ (by omega) (by omega)) fun _ =>
      addressed_bind (frame _ _ (by omega) (by omega)) fun _ =>
        addressed_bind (frame _ _ (by omega) (by omega)) fun _ => addressed_ok _

theorem diagonal_addressed (frame : FrameAddressed m d) (hx : x + 1 < d.w.toNat) (hy : y + 1 < d.h.toNat) :
    Addressed (diagonal m d x y) :=
  addressed_bind (frame _ _ (by omega) (by omega)) fun _ =>
    addressed_bind (frame _ _ (by omega) (by omega)) fun _ =>
      addressed_bind (frame _ _ (by omega) (by omega)) fun _ =>
        addressed_bind (frame _ _ (by omega) (by omega)) fun _ => addressed_ok _

theorem horizontal_addressed (frame : FrameAddressed m d) (hx : x + 1 < d.w.toNat) (hy : y + 1 < d.h.toNat) :
    Addressed (horizontal m d x y) :=
  addressed_bind (frame _ _ (by omega) (by omega)) fun _ =>
    addressed_bind (frame _ _ (by omega) (by omega)) fun _ => addressed_ok _

theorem vertical_addressed (frame : FrameAddressed m d) (hx : x + 1 < d.w.toNat) (hy : y + 1 < d.h.toNat) :
    Addressed (vertical m d x y) :=
  addressed_bind (frame _ _ (by omega) (by omega)) fun _ =>
    addressed_bind (frame _ _ (by omega) (by omega)) fun _ => addressed_ok _

theorem demosaic_addressed (frame : FrameAddressed m d) (hx : x < d.w.toNat) (hy : y < d.h.toNat) :
    Addressed (demosaic m d x y) := by
  unfold demosaic
  split
  · exact addressed_ok _
  next interior =>
    obtain ⟨right, below⟩ : x + 1 < d.w.toNat ∧ y + 1 < d.h.toNat := by
      simp only [isBorder, Bool.or_eq_true, beq_iff_eq, not_or] at interior
      omega
    have own := frame x y hx hy
    have orth := orthogonal_addressed frame right below
    have diag := diagonal_addressed frame right below
    have hor := horizontal_addressed frame right below
    have ver := vertical_addressed frame right below
    split
    · exact addressed_bind own fun _ => addressed_bind orth fun _ => addressed_bind diag fun _ => addressed_ok _
    · exact addressed_bind diag fun _ => addressed_bind orth fun _ => addressed_bind own fun _ => addressed_ok _
    · exact addressed_bind hor fun _ => addressed_bind own fun _ => addressed_bind ver fun _ => addressed_ok _
    · exact addressed_bind ver fun _ => addressed_bind own fun _ => addressed_bind hor fun _ => addressed_ok _

theorem convertPixels_addressed (frame : FrameAddressed m d) (bytesOf : Rgb → List Byte)
    {ps : List (Nat × Nat)} (inFrame : ∀ p ∈ ps, p.1 < d.w.toNat ∧ p.2 < d.h.toNat) :
    Addressed (convertPixels m d bytesOf ps) := by
  induction ps with
  | nil => exact addressed_ok _
  | cons p ps ih =>
    obtain ⟨hx, hy⟩ := inFrame p List.mem_cons_self
    exact addressed_bind (demosaic_addressed frame hx hy) fun _ =>
      addressed_bind (ih fun q hq => inFrame q (List.mem_cons_of_mem p hq)) fun _ => addressed_ok _

/-- A drawn coordinate is inside a frame of three pixels or more (44_whitebalance.md R212). -/
theorem wbMap_lt (value : Nat) {dim : Nat} (h : 3 ≤ dim) : wbMap value dim < dim := by
  have := Nat.mod_lt value (show 0 < dim - 2 by omega)
  unfold wbMap
  omega

theorem wbRound_addressed (frame : FrameAddressed m d) (hw : 3 ≤ d.w.toNat) (hh : 3 ≤ d.h.toNat)
    (n : Nat) (seed : Word) (mx : Rgb) : Addressed (wbRound m d n seed mx) := by
  induction n generalizing seed mx with
  | zero => exact addressed_ok _
  | succ n ih =>
    exact addressed_bind (demosaic_addressed frame (wbMap_lt _ hw) (wbMap_lt _ hh)) fun _ => ih _ _

theorem wbRounds_addressed (frame : FrameAddressed m d) (hw : 3 ≤ d.w.toNat) (hh : 3 ≤ d.h.toNat)
    (samples k : Nat) (seed : Word) (total : Rgb) : Addressed (wbRounds m d samples k seed total) := by
  induction k generalizing seed total with
  | zero => exact addressed_ok _
  | succ k ih => exact addressed_bind (wbRound_addressed frame hw hh _ _ _) fun _ => ih _ _

end

/-! ### Operations that answer -/

/-- The outcome is a next state. -/
def Answers (o : Out) : Prop := ∃ s', o = .next s'

theorem answers_respond {s : State} {st : Status} {r0 r1 r2 r3 : Word} :
    Answers (respond s st r0 r1 r2 r3) := ⟨_, rfl⟩

theorem answers_refuse (s : State) : Answers (refuse s) := answers_respond

theorem answers_reject (s : State) : Answers (reject s) := answers_respond

theorem answers_ite {c : Prop} [Decidable c] {a b : Out} (ha : Answers a) (hb : Answers b) :
    Answers (if c then a else b) := by
  split
  · exact ha
  · exact hb

/-- Reading addressed samples answers when its continuation does. -/
theorem answers_onSamples {α : Type} {s : State} {r : Except SampleStop α} {k : α → Out}
    (addressed : Addressed r) (runs : ∀ a, Answers (k a)) : Answers (onSamples s r k) :=
  onSamples_rule (answers_refuse s) (fun stops => absurd stops addressed) fun a _ => runs a

theorem execTaf_answers (s : State) : Answers (execTaf s) := by
  refine answers_ite (answers_refuse s) ?_
  split <;> exact answers_respond

/-- A publish that is checked before it is made does not stop (41_ring.md R133, R139). -/
theorem execPub_answers (slot : Byte) (seq : Word) (s : State) : Answers (execPub slot seq s) := by
  refine withSlot_rule (answers_refuse s) fun d _ => ?_
  split
  · exact answers_refuse s
  · split
    · exact answers_refuse s
    next guard =>
      obtain ⟨cursor, notFull⟩ : slot.toNat = s.inCur ∧ s.ringFull = false := by simpa using guard
      rw [ringPublish, if_pos ⟨cursor, notFull⟩]
      exact answers_respond

theorem execTar_answers {s : State} (hs : s.Inv) : Answers (execTar s) := by
  unfold execTar
  split
  · exact answers_refuse s
  next pool =>
    split
    · exact answers_respond
    · obtain ⟨d, hd⟩ := hs.slot_outCur pool
      rw [hd]
      exact answers_respond

/-- frame_end publishes an attached slot only where ring_publish is defined (42_capture.md R158). -/
theorem frameEnd_ok {s : State} (hs : s.Inv) (pool : s.n ≠ 0) : ∃ t g, frameEnd s = .ok (t, g) := by
  unfold frameEnd
  cases hatt : s.attached with
  | none => exact ⟨_, _, rfl⟩
  | some i =>
    obtain ⟨rfl, notFull⟩ := hs.attached i hatt
    obtain ⟨d, hd⟩ := hs.slot_inCur pool
    simp only [hd, ringPublish, (ringFull_eq_false_iff s).2 notFull, and_self, if_true]
    exact ⟨_, _, rfl⟩

theorem frameStart_ok {s : State} (hs : s.Inv) (pool : s.n ≠ 0) : ∃ t g, frameStart s = .ok (t, g) := by
  unfold frameStart ringTryFree
  cases s.attached with
  | some i => exact ⟨_, _, rfl⟩
  | none =>
    cases s.ringFull with
    | true => exact ⟨_, _, rfl⟩
    | false =>
      obtain ⟨d, hd⟩ := hs.slot_inCur pool
      simp only [Bool.false_eq_true, if_false, hd]
      exact ⟨_, _, rfl⟩

theorem isrStep_ok {c : Bool} {f : State → Except Fault (State × Word)} {s : State} (flags : Word)
    (h : ∃ t g, f s = .ok (t, g)) : ∃ t g, isrStep c f s flags = .ok (t, g) := by
  obtain ⟨t, g, hf⟩ := h
  cases c with
  | false => exact ⟨s, flags, rfl⟩
  | true => exact ⟨t, flags ||| g, by simp [isrStep, hf]⟩

theorem execIsr_answers {s : State} (hs : s.Inv) : Answers (execIsr s) := by
  unfold execIsr
  dsimp only
  split
  · exact answers_respond
  next serviced =>
    have streaming : s.session = .streaming := not_not.1 (not_or.1 serviced).1
    have inv := hs.writeBackStatus s.status0 s.status1
    obtain ⟨u, flags, boundary⟩ := isrStep_ok (c := isBoundary s.status0 s.status1) flagServiced
      (frameEnd_ok inv (hs.pool_of_streaming streaming))
    obtain ⟨uinv, streams⟩ := frameEnd_step_inv inv streaming boundary
    obtain ⟨v, flags', frame⟩ := isrStep_ok (c := isFrameStart s.status1) flags
      (frameStart_ok uinv (uinv.pool_of_streaming streams))
    simp only [boundary, frame]
    exact answers_respond

theorem execKsetup_answers (ctl : Byte) (min max step default : Word) (s : State) :
    Answers (execKsetup ctl min max step default s) := by
  refine withCtrl_rule (answers_refuse s) fun k _ => ?_
  exact answers_ite answers_respond (answers_refuse s)

theorem execKset_answers (ctl : Byte) (value : Word) (s : State) : Answers (execKset ctl value s) := by
  refine withCtrl_rule (answers_refuse s) fun k _ => ?_
  exact answers_ite (answers_reject s) (answers_ite (answers_reject s) answers_respond)

theorem execKsetp_answers (ctl : Byte) (percent : Half) (s : State) :
    Answers (execKsetp ctl percent s) := by
  refine withCtrl_rule (answers_refuse s) fun k _ => ?_
  exact answers_ite (answers_reject s) (answers_ite (answers_reject s) answers_respond)

theorem execKget_answers (ctl : Byte) (s : State) : Answers (execKget ctl s) := by
  refine withCtrl_rule (answers_refuse s) fun k _ => ?_
  exact answers_ite (answers_reject s) answers_respond

theorem execKinfo_answers (ctl : Byte) (s : State) : Answers (execKinfo ctl s) := by
  refine withCtrl_rule (answers_refuse s) fun k _ => ?_
  exact answers_ite answers_respond answers_respond

section
variable {s : State} (hs : s.Inv) (space : s.BuffersInSpace)
include hs space

/-- A pixel operation answers when its continuation does. -/
theorem pixel_answers (slot : Byte) (x y : Word) (k : Slot → Rgb → Out)
    (runs : ∀ d p, Answers (k d p)) :
    Answers (withPixel s slot x y fun d => onSamples s (demosaic s.mem d x.toNat y.toNat) (k d)) :=
  withPixel_rule (answers_refuse s) (answers_reject s) fun d hd hx hy =>
    answers_onSamples (demosaic_addressed (hs.frameAddressed space hd) hx hy) (runs d)

theorem convertFrame_answers (slot : Byte) (dst : Word) (bpp : Nat) (bytesOf : Slot → Rgb → List Byte) :
    Answers (convertFrame slot dst bpp bytesOf s) := by
  refine withDecodable_rule (answers_refuse s) fun d hd _ => ?_
  dsimp only
  split
  · exact answers_refuse s
  · exact answers_onSamples
      (convertPixels_addressed (hs.frameAddressed space hd) _ fun _ hp => mem_raster.1 hp)
      fun _ => answers_respond

theorem execWbal_answers (slot : Byte) (samples rounds : Word) :
    Answers (execWbal slot samples rounds s) := by
  refine withDecodable_rule (answers_refuse s) fun d hd _ => ?_
  split
  · exact answers_reject s
  next guard =>
    obtain ⟨hw, hh, -, -⟩ : 3 ≤ d.w.toNat ∧ 3 ≤ d.h.toNat ∧ samples.toNat ≤ 65535 ∧ rounds.toNat ≤ 65535 := by
      omega
    refine answers_onSamples (wbRounds_addressed (hs.frameAddressed space hd) hw hh _ _ _ _) fun r => ?_
    unfold wbFinish
    split <;> exact answers_respond

/-- Every operation answers (00_scope.md R13). -/
theorem exec_answers (i : Instr) : Answers (exec i s) := by
  cases i with
  | alloc => exact answers_ite (answers_reject s) (answers_ite answers_respond answers_respond)
  | free => exact answers_ite (answers_refuse s) (answers_ite (answers_reject s) answers_respond)
  | taf => exact execTaf_answers s
  | pub slot seq => exact execPub_answers slot seq s
  | tar => exact execTar_answers hs
  | rel => exact answers_ite (answers_refuse s) (answers_ite (answers_refuse s) answers_respond)
  | desc | gains => exact withSlot_rule (answers_refuse s) fun _ _ => answers_respond
  | start => exact answers_ite (answers_reject s) (answers_ite answers_respond answers_respond)
  | stop => exact answers_ite (answers_reject s) answers_respond
  | isr => exact execIsr_answers hs
  | mode =>
    exact answers_ite (answers_reject s)
      (answers_ite (answers_reject s) (answers_ite (answers_reject s) answers_respond))
  | getpix slot x y | pix888 slot x y | pix565 slot x y =>
    exact pixel_answers hs space slot x y _ fun _ _ => answers_respond
  | conv888 slot dst | conv565 slot dst => exact convertFrame_answers hs space slot dst _ _
  | wbal slot samples rounds => exact execWbal_answers hs space slot samples rounds
  | ksetup ctl min max step default => exact execKsetup_answers ctl min max step default s
  | kset ctl value => exact execKset_answers ctl value s
  | ksetp ctl percent => exact execKsetp_answers ctl percent s
  | kget ctl => exact execKget_answers ctl s
  | kinfo ctl => exact execKinfo_answers ctl s

end

/-- No step stops under the invariant while the pixel buffers end at or below 2^32. -/
theorem step_answers {s : State} (hs : s.Inv) (space : s.BuffersInSpace) : Answers (step s) := by
  rcases step_cases s with ⟨-, h⟩ | ⟨e, rest, -, ⟨_, _, -, h⟩ | ⟨_, i, -, -, h⟩ | ⟨_, -, h⟩ | ⟨_, -, h⟩⟩
  · exact ⟨_, h⟩
  · exact h ▸ answers_refuse _
  · exact h ▸ exec_answers (hs.withInputs rest) space i
  · exact ⟨_, h⟩
  · exact ⟨_, h⟩

/-! ### The launch premises along a run -/

/-- What the launch premises speak of is the same in t as in s: parameters, N and the size of a buffer. -/
structure State.SamePlacement (s t : State) : Prop where
  params : t.params = s.params
  n      : t.n = s.n
  size   : t.modeSize = s.modeSize

theorem State.SamePlacement.trans {s t u : State} (hst : s.SamePlacement t) (htu : t.SamePlacement u) :
    s.SamePlacement u :=
  ⟨htu.params.trans hst.params, htu.n.trans hst.n, htu.size.trans hst.size⟩

theorem State.SamePlacement.launchPremises {s t : State} (same : s.SamePlacement t)
    (premises : s.LaunchPremises) : t.LaunchPremises := by
  show t.params.Legal ∧ t.params.Placed t.n t.modeSize
  rw [same.params, same.n, same.size]
  exact premises

/-- Without a slot every premise of R74 holds (20_memory.md R74). -/
theorem Params.placed_zero (p : Params) (size : Nat) : p.Placed 0 size where
  buffersApart := fun _ _ hi => absurd hi (Nat.not_lt_zero _)
  scratchApart := fun _ hi => absurd hi (Nat.not_lt_zero _)
  buffersInSpace := fun _ hi => absurd hi (Nat.not_lt_zero _)
  scratchInSpace := fun h => absurd rfl h
  aligned := fun _ hi => absurd hi (Nat.not_lt_zero _)

theorem launchPremises_of_noPool {s : State} (legal : s.params.Legal) (noPool : s.n = 0) :
    s.LaunchPremises := by
  refine ⟨legal, ?_⟩
  rw [noPool]
  exact Params.placed_zero _ _

/-- The premise on the buffers' ends is one of the launch premises. -/
theorem State.Inv.buffersInSpace {s : State} (hs : s.Inv) (premises : s.LaunchPremises) :
    s.BuffersInSpace := by
  intro d hd
  obtain ⟨i, hi⟩ := List.getElem?_of_mem hd
  obtain ⟨pa, size, -⟩ := hs.slots.2 i d hi
  obtain ⟨hlt, hpa⟩ := List.getElem?_eq_some_iff.1 pa
  have hi20 : i < 20 := by simpa using hlt
  have hin : i < s.n := (List.getElem?_eq_some_iff.1 hi).1
  have inSpace := premises.2.buffersInSpace ⟨i, hi20⟩ hin
  rw [size, ← hpa]
  simpa using inSpace

theorem frameEnd_samePlacement {s t : State} {g : Word} (h : frameEnd s = .ok (t, g)) :
    s.SamePlacement t := by
  rcases frameEnd_cases h with ⟨-, rfl, -⟩ | ⟨d, -, -, -, rfl, -⟩
  · exact ⟨rfl, rfl, rfl⟩
  · exact ⟨rfl, State.setSlot_n .., rfl⟩

theorem frameStart_samePlacement {s t : State} {g : Word} (h : frameStart s = .ok (t, g)) :
    s.SamePlacement t := by
  rcases frameStart_cases h with ⟨-, rfl, -⟩ | ⟨-, -, rfl, -⟩ | ⟨d, -, -, -, rfl, -⟩
  · exact ⟨rfl, rfl, rfl⟩
  · exact ⟨rfl, rfl, rfl⟩
  · exact ⟨rfl, State.setSlot_n .., rfl⟩

/-- A change keeps the placement, leaves no pool (FREE, MODE), or is ALLOC making one of the clamped size. -/
theorem Change.placement {i : Instr} {s t : State} (change : Change i s t) :
    s.SamePlacement t ∨ (t.params = s.params ∧ t.n = 0) ∨
      ∃ count, i = .alloc count ∧ t.params = s.params ∧ t.n = clampCount count ∧ t.modeSize = s.modeSize := by
  cases change with
  | unchanged | rel | start | stop | isrReturns | conv888 | conv565 | ksetup | kset | ksetp =>
    exact .inl ⟨rfl, rfl, rfl⟩
  | alloc => exact .inr (.inr ⟨_, rfl, rfl, freshPool_length s _, rfl⟩)
  | free => exact .inr (.inl ⟨rfl, rfl⟩)
  | mode _ noPool => exact .inr (.inl ⟨rfl, noPool⟩)
  | pub | wbal => exact .inl ⟨rfl, State.setSlot_n .., rfl⟩
  | isrServices _ boundary frame =>
    have written : s.SamePlacement (s.writeBackStatus s.status0 s.status1) := ⟨rfl, rfl, rfl⟩
    have ended := isrStep_rule (P := s.SamePlacement)
      (fun h => written.trans (frameEnd_samePlacement h)) boundary written
    exact .inl (isrStep_rule (P := s.SamePlacement)
      (fun h => ended.trans (frameStart_samePlacement h)) frame ended)

theorem rxEffect_samePlacement (r : RxStep) (s : State) : s.SamePlacement (rxEffect r s) := by
  cases r <;> exact ⟨rfl, rfl, rfl⟩

/-- A step whose ALLOC, if it is one, is placed as R74 says keeps the launch premises. -/
theorem step_launchPremises {s s' : State} (premises : s.LaunchPremises) (placed : s.NextPoolPlaced)
    (h : step s = .next s') : s'.LaunchPremises := by
  cases step_effect h with
  | quiet | environment => exact premises
  | receiver => exact (rxEffect_samePlacement _ _).launchPremises premises
  | @operation i p rest t r next decoded change =>
    show t.LaunchPremises
    rcases change.placement with same | ⟨params, noPool⟩ | ⟨count, rfl, params, n, size⟩
    · exact same.launchPremises premises
    · exact launchPremises_of_noPool (params ▸ premises.1) noPool
    · show t.params.Legal ∧ t.params.Placed t.n t.modeSize
      rw [params, n, size]
      exact ⟨premises.1, placed count ⟨p, rest, next, decoded⟩⟩

/-- Settles O14: totality of a step, the invariant and the premises along it, each a lemma above. -/
theorem noStepStopsUnderThePremise : Obligations.NoStepStopsUnderThePremise := by
  refine ⟨fun s hs => ⟨step_answers hs, hs.buffersInSpace, fun premises placed => ?_⟩,
    fun p legal => launchPremises_of_noPool legal rfl⟩
  obtain ⟨s', h⟩ := step_answers hs (hs.buffersInSpace premises)
  exact ⟨s', h, step_inv hs h, step_launchPremises premises placed h⟩

end Sys2Proof.Machine
end

section
/-! PROOFS. Status write-back, the state after reset, and the invariant along every step. -/

namespace Sys2Proof.Machine

/-- Bit i of a status register after a write: kept where the written bit is 0 (10_state.md R23). -/
theorem writeOneToClear_getLsbD (status v : Word) (i : Nat) :
    (writeOneToClear status v).getLsbD i = (status.getLsbD i && !v.getLsbD i) := by
  rw [writeOneToClear, BitVec.getLsbD_and, BitVec.getLsbD_not]
  by_cases inWord : i < 32
  · simp [inWord]
  · simp [BitVec.getLsbD_of_ge status i (by omega)]

/-- Settles O38: both registers are written by the same rule. -/
theorem writeBackClearsExactlyTheOnes : Obligations.WriteBackClearsExactlyTheOnes :=
  fun _ _ _ _ => ⟨writeOneToClear_getLsbD .., writeOneToClear_getLsbD ..⟩

@[simp] theorem resetWith_ctrl (p : Params) (k : Fin 16) : (State.resetWith p).ctrls[k] = Ctrl.unset := by
  simp [State.resetWith]

/-- No receiver step is enabled while Disabled. -/
theorem rxEnabled_of_disabled {s : State} (disabled : s.session = .disabled) (r : RxStep) :
    rxEnabled r s = false :=
  Bool.eq_false_iff.2 fun enabled => nomatch disabled.symm.trans (rxEnabled_streaming enabled)

/-- Settles O11: the fields of reset by evaluation, the receiver by its session. -/
theorem resetLeavesTheStatedValues : Obligations.ResetLeavesTheStatedValues := by
  intro p
  have controls (k : Fin 16) : (State.resetWith p).ctrls[k].supported = false := by
    rw [resetWith_ctrl]
    rfl
  have receiver (r : RxStep) : rxEnabled r (State.resetWith p) = false := rxEnabled_of_disabled rfl r
  exact ⟨rfl, rfl, rfl, rfl, rfl, rfl, rfl, rfl, rfl, rfl, rfl, rfl, rfl, controls, rfl, rfl, receiver, rfl⟩

/-- The invariant holds right after reset, whatever the parameters. -/
theorem resetWith_inv (p : Params) : (State.resetWith p).Inv where
  ring := .inl ⟨rfl, rfl, rfl⟩
  engine := ⟨fun _ => ⟨rfl, rfl, rfl, rfl, rfl⟩, fun streaming => nomatch streaming⟩
  attached := fun _ h => nomatch h
  status := by
    have zero : (0#32).toNat < 4 := by decide
    exact ⟨zero, zero⟩
  mode := fun valid => nomatch valid
  slots := ⟨fun pool => absurd rfl pool, fun i d hd => by simp [State.resetWith] at hd⟩
  controls := fun k supported => by
    rw [resetWith_ctrl] at supported
    exact nomatch supported
  memory := ⟨⟨List.Pairwise.nil, fun _ hc => nomatch hc⟩, fun _ hc => nomatch hc⟩

/-- Settles O12. -/
theorem resetMeetsTheInvariant : Obligations.ResetMeetsTheInvariant :=
  ⟨resetWith_inv Params.conventions, resetWith_inv⟩

/-- Settles O13: a step is one of the effects of StepEffect, and each keeps the invariant. -/
theorem everyStepKeepsTheInvariant : Obligations.EveryStepKeepsTheInvariant :=
  fun _ _ hs h => step_inv hs h

end Sys2Proof.Machine
end

section
/-! PROOFS. What stays fixed: the mode registers but by MODE, and the buffer of every slot while the pool lives. -/

namespace Sys2Proof.Machine

/-- What both steps of the handler keep is the same after them. -/
theorem handler_keeps {α : Type} (f : State → α)
    (ends : ∀ {s t g}, frameEnd s = .ok (t, g) → f t = f s)
    (starts : ∀ {s t g}, frameStart s = .ok (t, g) → f t = f s)
    {s u v : State} {b c : Bool} {flags flags' flags'' : Word}
    (boundary : isrStep b frameEnd s flags = .ok (u, flags'))
    (frame : isrStep c frameStart u flags' = .ok (v, flags'')) : f v = f s := by
  have ended : f u = f s := isrStep_rule (P := fun t => f t = f s) ends boundary rfl
  exact isrStep_rule (P := fun t => f t = f s) (fun h => (starts h).trans ended) frame ended

/-! ### The mode registers -/

/-- The mode registers (10_state.md R25). -/
def State.modeRegisters (s : State) : Half × Half × Word × Half × Bool :=
  (s.modeW, s.modeH, s.modeBpl, s.modeFmt, s.modeValid)

theorem modeRegisters_eq_iff (s t : State) :
    t.modeRegisters = s.modeRegisters ↔
      t.modeW = s.modeW ∧ t.modeH = s.modeH ∧ t.modeBpl = s.modeBpl ∧ t.modeFmt = s.modeFmt ∧
        t.modeValid = s.modeValid := by
  simp [State.modeRegisters]

theorem frameEnd_modeRegisters {s t : State} {g : Word} (h : frameEnd s = .ok (t, g)) :
    t.modeRegisters = s.modeRegisters := by
  rcases frameEnd_cases h with ⟨-, rfl, -⟩ | ⟨d, -, -, -, rfl, -⟩ <;> rfl

theorem frameStart_modeRegisters {s t : State} {g : Word} (h : frameStart s = .ok (t, g)) :
    t.modeRegisters = s.modeRegisters := by
  rcases frameStart_cases h with ⟨-, rfl, -⟩ | ⟨-, -, rfl, -⟩ | ⟨d, -, -, -, rfl, -⟩ <;> rfl

/-- A change leaves the mode registers, or is MODE while Disabled and without a pool (42_capture.md R150). -/
theorem Change.modeRegisters {i : Instr} {s t : State} (change : Change i s t) :
    t.modeRegisters = s.modeRegisters ∨
      (s.session = .disabled ∧ s.n = 0 ∧ ∃ fmt w h bpl, i = .mode fmt w h bpl) := by
  cases change with
  | mode disabled noPool => exact .inr ⟨disabled, noPool, _, _, _, _, rfl⟩
  | isrServices _ boundary frame =>
    have kept := handler_keeps State.modeRegisters frameEnd_modeRegisters frameStart_modeRegisters boundary frame
    exact .inl kept
  | unchanged | alloc | free | pub | rel | start | stop | isrReturns | conv888 | conv565 | wbal | ksetup
    | kset | ksetp => exact .inl rfl

/-- Settles O19: of the effects of a step only the change of MODE writes a mode register. -/
theorem modeRegistersWrittenOnlyByMode : Obligations.ModeRegistersWrittenOnlyByMode := by
  intro s s' h
  rw [← modeRegisters_eq_iff]
  cases step_effect h with
  | quiet | environment => exact .inl rfl
  | @receiver r => cases r <;> exact .inl rfl
  | operation _ next decoded change =>
    rcases change.modeRegisters with same | ⟨disabled, noPool, fmt, w, h, bpl, rfl⟩
    · exact .inl same
    · exact .inr ⟨disabled, noPool, fmt, w, h, bpl, _, _, next, decoded⟩

/-! ### Rewriting one slot -/

/-- A column of the slots that a new descriptor of slot i does not change. -/
theorem State.setSlot_map_slots {α : Type} (f : Slot → α) {s : State} {i : Nat} {d e : Slot}
    (found : s.slots[i]? = some d) (same : f e = f d) : (s.setSlot i e).slots.map f = s.slots.map f := by
  obtain ⟨inPool, rfl⟩ := List.getElem?_eq_some_iff.1 found
  rw [State.setSlot_slots, List.map_set, same, ← List.getElem_map f (h := by simpa using inPool),
    List.set_getElem_self]

/-- A frame start writes no column of the slots but the time stamps (42_capture.md R159). -/
theorem frameStart_map_slots {α : Type} (f : Slot → α) (noStamp : ∀ d ts, f { d with ts := ts } = f d)
    {s t : State} {g : Word} (h : frameStart s = .ok (t, g)) : t.slots.map f = s.slots.map f := by
  rcases frameStart_cases h with ⟨-, rfl, -⟩ | ⟨-, -, rfl, -⟩ | ⟨d, -, -, hd, rfl, -⟩
  · rfl
  · rfl
  · exact State.setSlot_map_slots f hd (noStamp d _)

/-! ### The buffers of the slots -/

/-- A slot's buffer: its address and its size (10_state.md R28). -/
def Slot.buffer (d : Slot) : Word × Word := (d.pa, d.size)

theorem frameEnd_buffers {s t : State} {g : Word} (h : frameEnd s = .ok (t, g)) :
    t.slots.map Slot.buffer = s.slots.map Slot.buffer := by
  rcases frameEnd_cases h with ⟨-, rfl, -⟩ | ⟨d, -, hd, -, rfl, -⟩
  · rfl
  · exact State.setSlot_map_slots _ hd rfl

/-- A change leaves every buffer, or starts or ends without a pool (ALLOC, FREE). -/
theorem Change.buffers {i : Instr} {s t : State} (change : Change i s t) :
    t.slots.map Slot.buffer = s.slots.map Slot.buffer ∨ s.n = 0 ∨ t.n = 0 := by
  cases change with
  | unchanged | rel | mode | start | stop | isrReturns | conv888 | conv565 | ksetup | kset | ksetp =>
    exact .inl rfl
  | alloc _ noPool => exact .inr (.inl noPool)
  | free => exact .inr (.inr rfl)
  | pub _ found | wbal found => exact .inl (State.setSlot_map_slots _ found rfl)
  | isrServices _ boundary frame =>
    have kept := handler_keeps (·.slots.map Slot.buffer) frameEnd_buffers
      (frameStart_map_slots Slot.buffer fun _ _ => rfl) boundary frame
    exact .inl kept

theorem step_buffers {s s' : State} (h : step s = .next s') :
    s'.slots.map Slot.buffer = s.slots.map Slot.buffer ∨ s.n = 0 ∨ s'.n = 0 := by
  cases step_effect h with
  | quiet | environment => exact .inl rfl
  | @receiver r => cases r <;> exact .inl rfl
  | operation _ _ _ change => exact change.buffers

/-- Settles O24: a slot that exists before and after a step of the same N has the buffer it had. -/
theorem slotBuffersAreFixedAtAllocation : Obligations.SlotBuffersAreFixedAtAllocation := by
  intro s s' k d h samePool found
  have pool := State.pool_of_slot found
  have same : s'.slots.map Slot.buffer = s.slots.map Slot.buffer := by
    rcases step_buffers h with same | noPool | noPool
    · exact same
    · exact absurd noPool pool
    · exact absurd (samePool ▸ noPool) pool
  have column : (s'.slots.map Slot.buffer)[k]? = some d.buffer := by
    rw [same, List.getElem?_map, found, Option.map_some]
  rw [List.getElem?_map, Option.map_eq_some_iff] at column
  obtain ⟨d', found', buffer⟩ := column
  obtain ⟨pa, size⟩ := Prod.mk.inj buffer
  exact ⟨d', found', pa, size⟩

end Sys2Proof.Machine
end

section
/-! PROOFS. Ownership of a slot moves forward: the owner read off the cursors, then the moves of each change. -/

namespace Sys2Proof.Machine

/-! ### Cursors modulo N -/

/-- A difference of two cursors modulo N. -/
theorem cursor_sub_mod {a b n : Nat} (ha : a < n) (hb : b < n) :
    (((a : Int) - (b : Int)) % (n : Int)).toNat = if b ≤ a then a - b else a + n - b := by
  split
  next le =>
    rw [Int.emod_eq_of_lt] <;> omega
  next lt =>
    rw [← Int.add_emod_right, Int.emod_eq_of_lt] <;> omega

/-- The cursor after c: c + 1, or 0 after the last slot. -/
theorem cursor_next {c n : Nat} (hc : c < n) : (c + 1) % n = if c + 1 = n then 0 else c + 1 := by
  split
  next last => rw [last, Nat.mod_self]
  next inside => exact Nat.mod_eq_of_lt (by omega)

theorem State.Inv.readyCount_eq {s : State} (hs : s.Inv) (pool : s.n ≠ 0) :
    s.readyCount = if s.outCur ≤ s.inCur then s.inCur - s.outCur else s.inCur + s.n - s.outCur :=
  cursor_sub_mod (hs.inCur_lt pool) (hs.outCur_lt pool)

/-! ### The owner of a slot -/

/-- i is in [OUT, IN) modulo N (10_state.md R27, R31), written without a remainder. -/
def State.Queued (s : State) (i : Nat) : Prop :=
  (s.outCur ≤ i ∧ i < s.inCur) ∨ (s.inCur < s.outCur ∧ (s.outCur ≤ i ∨ i < s.inCur))

theorem State.Inv.inReadyRange_iff {s : State} (hs : s.Inv) {i : Nat} (hi : i < s.n) :
    s.inReadyRange i = true ↔ s.Queued i := by
  have pool : s.n ≠ 0 := by omega
  have hin := hs.inCur_lt pool
  have hout := hs.outCur_lt pool
  rw [State.inReadyRange, decide_eq_true_iff, hs.readyCount_eq pool, cursor_sub_mod hi hout, State.Queued]
  split <;> split <;> omega

/-- OUT is queued exactly while the ring is not empty. -/
theorem State.queued_outCur_iff (s : State) : s.Queued s.outCur ↔ s.inCur ≠ s.outCur := by
  unfold State.Queued
  omega

/-- IN is never queued. -/
theorem State.not_queued_inCur (s : State) : ¬ s.Queued s.inCur := by
  unfold State.Queued
  omega

theorem State.owner_attached {s : State} {i : Nat} (attached : s.attached = some i) : s.owner i = .dma :=
  if_pos attached

section
variable {s : State} (hs : s.Inv) {i : Nat} (hi : i < s.n)
include hs hi

/-- The owner of a slot of the pool (10_state.md R31): attached, queued behind the head, the head, or none of these. -/
theorem State.Inv.owner_eq [Decidable (s.Queued i)] :
    s.owner i = if s.attached = some i then .dma
      else if s.Queued i then (if i = s.outCur then .application else .ready) else .free := by
  have range := hs.inReadyRange_iff hi
  have head : i = s.outCur → (s.Queued i ↔ s.inCur ≠ s.outCur) := by
    rintro rfl
    exact s.queued_outCur_iff
  unfold State.owner State.ringEmpty
  by_cases hq : s.Queued i <;> by_cases ho : i = s.outCur <;> simp_all

theorem State.Inv.owner_free (unattached : s.attached ≠ some i) (unqueued : ¬ s.Queued i) :
    s.owner i = .free := by
  classical rw [hs.owner_eq hi, if_neg unattached, if_neg unqueued]

theorem State.Inv.owner_head (unattached : s.attached ≠ some i) (queued : s.Queued i)
    (head : i = s.outCur) : s.owner i = .application := by
  classical rw [hs.owner_eq hi, if_neg unattached, if_pos queued, if_pos head]

theorem State.Inv.owner_ready (unattached : s.attached ≠ some i) (queued : s.Queued i)
    (behind : i ≠ s.outCur) : s.owner i = .ready := by
  classical rw [hs.owner_eq hi, if_neg unattached, if_pos queued, if_neg behind]

/-- A queued slot that is not attached is the application's or ready. -/
theorem State.Inv.owner_queued (unattached : s.attached ≠ some i) (queued : s.Queued i) :
    s.owner i = .application ∨ s.owner i = .ready := by
  by_cases head : i = s.outCur
  · exact .inl (hs.owner_head hi unattached queued head)
  · exact .inr (hs.owner_ready hi unattached queued head)

/-- A slot whose place in the ring is the same has the same owner. -/
theorem State.Inv.owner_congr {t : State} (ht : t.Inv) (n : t.n = s.n)
    (attached : t.attached = some i ↔ s.attached = some i) (queued : t.Queued i ↔ s.Queued i)
    (head : s.Queued i → (i = t.outCur ↔ i = s.outCur)) : t.owner i = s.owner i := by
  classical
  rw [hs.owner_eq hi, ht.owner_eq (n ▸ hi)]
  by_cases hq : s.Queued i
  · simp [attached, queued, hq, head hq]
  · simp [attached, queued, hq]

end

/-! ### The moves of the ring's micro-operations -/

/-- t is s with slot IN published, and no slot attached (41_ring.md R139). -/
structure State.Publishes (s t : State) : Prop where
  n        : t.n = s.n
  outCur   : t.outCur = s.outCur
  inCur    : t.inCur = (s.inCur + 1) % s.n
  notFull  : s.ringFull = false
  attached : t.attached = none

section
variable {s t : State} (hs : s.Inv) (ht : t.Inv) (publishes : s.Publishes t)
include hs publishes

/-- Publishing queues slot IN and no other. -/
theorem State.Publishes.queued_iff {i : Nat} (hi : i < s.n) : t.Queued i ↔ i = s.inCur ∨ s.Queued i := by
  have pool : s.n ≠ 0 := by omega
  have notFull := (ringFull_eq_false_iff s).1 publishes.notFull
  have hin := hs.inCur_lt pool
  have hout := hs.outCur_lt pool
  have next := cursor_next hin
  unfold State.Queued
  rw [publishes.inCur, publishes.outCur]
  split at next <;> omega

include ht

/-- Publishing moves no slot but IN. -/
theorem State.Publishes.owner_other {i : Nat} (hi : i < s.n) (other : i ≠ s.inCur) :
    t.owner i = s.owner i := by
  have unattached : s.attached ≠ some i := fun h => other (hs.attached i h).1
  refine hs.owner_congr hi ht publishes.n (by simp [publishes.attached, unattached]) ?_ fun _ => ?_
  · simp [publishes.queued_iff hs hi, other]
  · rw [publishes.outCur]

/-- The slot published is the application's or ready. -/
theorem State.Publishes.owner_inCur (hi : s.inCur < s.n) :
    t.owner s.inCur = .application ∨ t.owner s.inCur = .ready :=
  ht.owner_queued (publishes.n ▸ hi) (by simp [publishes.attached])
    ((publishes.queued_iff hs hi).2 (.inl rfl))

end

/-- OUT moved one slot on, as REL moves it (41_ring.md R135). -/
def State.released (s : State) : State := { s with outCur := (s.outCur + 1) % s.n }

/-- Releasing takes OUT out of the queue and no other slot. -/
theorem State.Inv.queued_release_iff {s : State} (hs : s.Inv) (notEmpty : s.inCur ≠ s.outCur) {i : Nat}
    (hi : i < s.n) :
    s.released.Queued i ↔ i ≠ s.outCur ∧ s.Queued i := by
  have pool : s.n ≠ 0 := by omega
  have hin := hs.inCur_lt pool
  have hout := hs.outCur_lt pool
  have next := cursor_next hout
  simp only [State.Queued, State.released]
  split at next <;> omega

/-! ### The moves of a step -/

/-- The owner of slot i is the same in t as in s, or has moved forward (10_state.md R31). -/
def State.OwnerForward (s t : State) (i : Nat) : Prop :=
  t.owner i = s.owner i ∨
    (s.owner i, t.owner i) ∈
      [(Owner.free, Owner.dma), (.free, .ready), (.free, .application), (.dma, .ready),
       (.dma, .application), (.ready, .application), (.application, .free)]

/-- A release moves the head to free and the slot behind it to the application (41_ring.md R135). -/
theorem State.Inv.release_ownerForward {s : State} (hs : s.Inv) (notEmpty : s.inCur ≠ s.outCur) {i : Nat}
    (hi : i < s.n) : s.OwnerForward s.released i := by
  have ht : s.released.Inv := hs.release (by omega) notEmpty
  have queued := hs.queued_release_iff notEmpty hi
  by_cases attached : s.attached = some i
  · rw [State.OwnerForward, State.owner_attached attached]
    exact .inl (State.owner_attached attached)
  by_cases hq : s.Queued i
  · by_cases head : i = s.outCur
    · have before := hs.owner_head hi attached hq head
      have after := ht.owner_free hi attached fun h => (queued.1 h).1 head
      exact .inr (by simp [before, after])
    · have before := hs.owner_ready hi attached hq head
      rcases ht.owner_queued hi attached (queued.2 ⟨head, hq⟩) with after | after
      · exact .inr (by simp [before, after])
      · exact .inl (after.trans before.symm)
  · have before := hs.owner_free hi attached hq
    have after := ht.owner_free hi attached fun h => hq (queued.1 h).2
    exact .inl (after.trans before.symm)

/-- PUB moves slot IN from free to the queue (41_ring.md R133). -/
theorem State.Publishes.ownerForward {s t : State} (hs : s.Inv) (ht : t.Inv) (publishes : s.Publishes t)
    (unattached : s.attached = none) {i : Nat} (hi : i < s.n) : s.OwnerForward t i := by
  by_cases cursor : i = s.inCur
  · subst cursor
    have before := hs.owner_free hi (by simp [unattached]) s.not_queued_inCur
    rcases publishes.owner_inCur hs ht hi with after | after
    · exact .inr (by simp [before, after])
    · exact .inr (by simp [before, after])
  · exact .inl (publishes.owner_other hs ht hi cursor)

/-- A frame end with a slot attached publishes slot IN; with none it moves no cursor. -/
theorem frameEnd_publishes {s t : State} {g : Word} (h : frameEnd s = .ok (t, g)) :
    t = { s with seq := s.seq + 1#32 } ∨ (s.attached = some s.inCur ∧ s.Publishes t) := by
  rcases frameEnd_cases h with ⟨-, rfl, -⟩ | ⟨d, attached, -, notFull, rfl, -⟩
  · exact .inl rfl
  · exact .inr ⟨attached, State.setSlot_n .., rfl, by simp, notFull, rfl⟩

/-- A frame end leaves the owner of slot i, or moves it from dma to the queue and IN past it (42_capture.md R158). -/
def State.FrameEndOwner (s t : State) (i : Nat) : Prop :=
  t.owner i = s.owner i ∨
    (i ≠ t.inCur ∧ s.owner i = .dma ∧ (t.owner i = .application ∨ t.owner i = .ready))

theorem frameEnd_owner {s t : State} {g : Word} (hs : s.Inv) (h : frameEnd s = .ok (t, g)) {i : Nat}
    (hi : i < s.n) : s.FrameEndOwner t i := by
  have ht := frameEnd_inv hs h
  rcases frameEnd_publishes h with rfl | ⟨attached, publishes⟩
  · exact .inl rfl
  · by_cases cursor : i = s.inCur
    · subst cursor
      have queued := (publishes.queued_iff hs hi).2 (.inl rfl)
      exact .inr ⟨fun meet => State.not_queued_inCur _ (meet ▸ queued), State.owner_attached attached,
        publishes.owner_inCur hs ht hi⟩
    · exact .inl (publishes.owner_other hs ht hi cursor)

/-- A frame start leaves the owner of slot i, or moves it from free to dma as slot IN (42_capture.md R159). -/
def State.FrameStartOwner (s t : State) (i : Nat) : Prop :=
  t.owner i = s.owner i ∨ (i = s.inCur ∧ s.owner i = .free ∧ t.owner i = .dma)

theorem frameStart_owner {s t : State} {g : Word} (hs : s.Inv) (streaming : s.session = .streaming)
    (h : frameStart s = .ok (t, g)) {i : Nat} (hi : i < s.n) :
    s.FrameStartOwner t i := by
  have ht := frameStart_inv hs streaming h
  rcases frameStart_cases h with ⟨-, rfl, -⟩ | ⟨-, -, rfl, -⟩ | ⟨d, unattached, -, -, rfl, -⟩
  · exact .inl rfl
  · exact .inl rfl
  · by_cases cursor : i = s.inCur
    · subst cursor
      exact .inr ⟨rfl, hs.owner_free hi (by simp [unattached]) s.not_queued_inCur, State.owner_attached rfl⟩
    · exact .inl (hs.owner_congr hi ht (State.setSlot_n ..) (by simp [unattached, Ne.symm cursor]) Iff.rfl
        fun _ => Iff.rfl)

/-- A serviced interrupt moves each slot forward: the one published, or the one attached, and these are two. -/
theorem handler_ownerForward {s u v : State} {b c : Bool} {flags flags' flags'' : Word} (hs : s.Inv)
    (streaming : s.session = .streaming) (boundary : isrStep b frameEnd s flags = .ok (u, flags'))
    (frame : isrStep c frameStart u flags' = .ok (v, flags'')) {i : Nat} (hi : i < s.n) :
    s.OwnerForward v i := by
  obtain ⟨inv, streams⟩ := frameEnd_step_inv hs streaming boundary
  have size : u.n = s.n :=
    isrStep_rule (P := fun t => t.n = s.n) (fun h => (frameEnd_samePlacement h).n) boundary rfl
  have ended : s.FrameEndOwner u i :=
    isrStep_rule (P := (s.FrameEndOwner · i)) (fun h => frameEnd_owner hs h hi) boundary (.inl rfl)
  have started : u.FrameStartOwner v i :=
    isrStep_rule (P := (u.FrameStartOwner · i)) (fun h => frameStart_owner inv streams h (size ▸ hi)) frame
      (.inl rfl)
  rcases ended with same | ⟨passed, before, published⟩
  · rcases started with same' | ⟨-, free, dma⟩
    · exact .inl (same'.trans same)
    · exact .inr (by simp [← same, free, dma])
  · rcases started with same' | ⟨cursor, -, -⟩
    · rcases published with after | after <;> exact .inr (by simp [before, same', after])
    · exact absurd cursor passed

/-- STOP takes the attached slot from dma to free and moves no other (42_capture.md R153). -/
theorem State.Inv.stop_owner {s : State} (hs : s.Inv) {i : Nat} (hi : i < s.n) :
    State.owner { s.clearEngine with armed := false, session := .disabled } i = s.owner i ∨
      (s.owner i = .dma ∧
        State.owner { s.clearEngine with armed := false, session := .disabled } i = .free) := by
  by_cases attached : s.attached = some i
  · have cursor := (hs.attached i attached).1
    refine .inr ⟨State.owner_attached attached, hs.stop.owner_free hi (by simp) ?_⟩
    rw [cursor]
    exact s.not_queued_inCur
  · exact .inl (hs.owner_congr hi hs.stop rfl (by simp [attached]) Iff.rfl fun _ => Iff.rfl)

/-- A change of a pool that lives moves each slot forward, but for STOP, which frees the attached slot. -/
theorem Change.ownerForward {op : Instr} {s t : State} (change : Change op s t) (hs : s.Inv)
    (samePool : t.n = s.n) {i : Nat} (hi : i < s.n) :
    s.OwnerForward t i ∨ (op = .stop ∧ s.owner i = .dma ∧ t.owner i = .free) := by
  have ht := change.inv hs
  cases change with
  | unchanged | mode | isrReturns | conv888 | conv565 | ksetup | kset | ksetp => exact .inl (.inl rfl)
  | alloc _ noPool => omega
  | free =>
    have noPool : s.n = 0 := samePool.symm
    omega
  | pub disabled _ _ notFull =>
    have publishes : s.Publishes _ := ⟨samePool, rfl, by simp, notFull, hs.not_attached disabled⟩
    exact .inl (publishes.ownerForward hs ht (hs.not_attached disabled) hi)
  | rel _ notEmpty => exact .inl (hs.release_ownerForward notEmpty hi)
  | start notStreaming =>
    have unattached := hs.not_attached (Session.disabled_of_ne_streaming notStreaming)
    exact .inl (.inl (hs.owner_congr hi ht rfl (by simp [unattached]) Iff.rfl fun _ => Iff.rfl))
  | stop =>
    rcases hs.stop_owner hi with same | ⟨dma, free⟩
    · exact .inl (.inl same)
    · exact .inr ⟨rfl, dma, free⟩
  | isrServices streaming boundary frame =>
    exact .inl (handler_ownerForward (hs.writeBackStatus _ _) streaming boundary frame hi)
  | wbal => exact .inl (.inl (hs.owner_congr hi ht samePool Iff.rfl Iff.rfl fun _ => Iff.rfl))

/-- Settles O16: only the change of an operation moves a slot. -/
theorem ownershipMovesForward : Obligations.OwnershipMovesForward := by
  intro s s' i hs h samePool hi
  cases step_effect h with
  | quiet | environment => exact .inl rfl
  | @receiver r => cases r <;> exact .inl rfl
  | operation _ next decoded change =>
    rcases change.ownerForward (hs.withInputs _) samePool hi with (same | moves) | ⟨rfl, dma, free⟩
    · exact .inl same
    · exact .inr (.inl moves)
    · exact .inr (.inr ⟨dma, free, _, _, next, decoded⟩)

end Sys2Proof.Machine
end

section
/-! PROOFS. SEQ numbers the serviced boundaries: the ready queue read off the slots, and what each step does to it. -/

namespace Sys2Proof.Machine

/-! ### The ready queue -/

/-- Of the slots the ready queue reads only the sequence numbers. -/
theorem State.readyQueue_eq (s : State) :
    s.readyQueue = (List.range s.readyCount).filterMap fun k =>
      (s.slots.map Slot.seq)[(s.outCur + k) % s.n]?.map fun q => ((s.outCur + k) % s.n, q) := by
  simp [State.readyQueue, List.getElem?_map, Function.comp_def]

/-- The ready queue is that of the cursors and of the slots' sequence numbers. -/
theorem readyQueue_congr {s t : State} (inCur : t.inCur = s.inCur) (outCur : t.outCur = s.outCur)
    (seqs : t.slots.map Slot.seq = s.slots.map Slot.seq) : t.readyQueue = s.readyQueue := by
  have n : t.n = s.n := by simpa [State.n] using congrArg List.length seqs
  simp only [State.readyQueue_eq, State.readyCount, inCur, outCur, seqs, n]

/-- The queue of an empty ring is part of any. -/
theorem readyQueue_sublist_of_empty {s t : State} (empty : t.inCur = t.outCur) :
    t.readyQueue.Sublist s.readyQueue := by
  simp [State.readyQueue, State.readyCount, empty]

section
variable {s : State} (hs : s.Inv) (pool : s.n ≠ 0)
include hs pool

/-- The queue runs from OUT up to IN: its first place past the end is slot IN. -/
theorem State.Inv.queue_end : (s.outCur + s.readyCount) % s.n = s.inCur := by
  have hin := hs.inCur_lt pool
  have hout := hs.outCur_lt pool
  rw [hs.readyCount_eq pool]
  split
  next le => rw [Nat.add_sub_cancel' le, Nat.mod_eq_of_lt hin]
  next gt =>
    rw [show s.outCur + (s.inCur + s.n - s.outCur) = s.inCur + s.n by omega, Nat.add_mod_right,
      Nat.mod_eq_of_lt hin]

/-- No place of the queue is slot IN. -/
theorem State.Inv.queue_place_ne {k : Nat} (hk : k < s.readyCount) : (s.outCur + k) % s.n ≠ s.inCur := by
  have hin := hs.inCur_lt pool
  have hout := hs.outCur_lt pool
  have count := hs.readyCount_eq pool
  intro meet
  have meet : s.outCur + k ≡ s.outCur + s.readyCount [MOD s.n] := meet.trans (hs.queue_end pool).symm
  have below : s.readyCount < s.n := by
    split at count <;> omega
  exact Nat.ne_of_lt hk
    (Nat.ModEq.eq_of_lt_of_lt (Nat.ModEq.add_left_cancel' s.outCur meet) (hk.trans below) below)

/-- Moving IN past a slot that is not the last free one makes one more slot ready. -/
theorem State.Inv.readyCount_publishNext (notFull : s.ringFull = false) (q : Word) :
    (s.publishNext q).readyCount = s.readyCount + 1 := by
  have hin := hs.inCur_lt pool
  have hout := hs.outCur_lt pool
  have next := cursor_next hin
  have notFull := (ringFull_eq_false_iff s).1 notFull
  have count : (s.publishNext q).readyCount =
      if s.outCur ≤ (s.inCur + 1) % s.n then (s.inCur + 1) % s.n - s.outCur
      else (s.inCur + 1) % s.n + s.n - s.outCur :=
    cursor_sub_mod (Nat.mod_lt _ (by omega)) hout
  rw [count, hs.readyCount_eq pool]
  split at next <;> split <;> split <;> omega

/-- Publishing slot IN appends it to the queue (41_ring.md R139, R140). -/
theorem State.Inv.readyQueue_publish (notFull : s.ringFull = false) (d : Slot) (q : Word) :
    ((s.setSlot s.inCur d).publishNext q).readyQueue = s.readyQueue ++ [(s.inCur, d.seq)] := by
  have count : ((s.setSlot s.inCur d).publishNext q).readyCount = s.readyCount + 1 := by
    rw [← hs.readyCount_publishNext pool notFull q]
    simp [State.readyCount]
  have ahead : ∀ k ∈ List.range s.readyCount,
      ((s.slots.set s.inCur d)[(s.outCur + k) % s.n]?.map fun e => ((s.outCur + k) % s.n, e.seq)) =
        s.slots[(s.outCur + k) % s.n]?.map fun e => ((s.outCur + k) % s.n, e.seq) := fun k hk => by
    rw [List.getElem?_set_ne (hs.queue_place_ne pool (List.mem_range.1 hk)).symm]
  have last : (s.slots.set s.inCur d)[s.inCur]? = some d := List.getElem?_set_self (hs.inCur_lt pool)
  rw [State.readyQueue, count, List.range_succ, List.filterMap_append]
  simp only [State.publishNext_slots, State.publishNext_outCur, State.publishNext_n, State.setSlot_slots,
    State.setSlot_outCur, State.setSlot_n]
  rw [List.filterMap_congr ahead, List.filterMap_cons, hs.queue_end pool, last]
  rfl

/-- A release makes one slot fewer ready. -/
theorem State.Inv.readyCount_released (notEmpty : s.inCur ≠ s.outCur) :
    s.readyCount = s.released.readyCount + 1 := by
  have hin := hs.inCur_lt pool
  have hout := hs.outCur_lt pool
  have next := cursor_next hout
  have count : s.released.readyCount =
      if (s.outCur + 1) % s.n ≤ s.inCur then s.inCur - (s.outCur + 1) % s.n
      else s.inCur + s.n - (s.outCur + 1) % s.n :=
    cursor_sub_mod hin (Nat.mod_lt _ (by omega))
  rw [count, hs.readyCount_eq pool]
  split at next <;> split <;> split <;> omega

/-- A release takes the head off the queue (41_ring.md R135, R140). -/
theorem State.Inv.readyQueue_released (notEmpty : s.inCur ≠ s.outCur) :
    s.released.readyQueue.Sublist s.readyQueue := by
  have place (k : Nat) : (s.released.outCur + k) % s.n = (s.outCur + (k + 1)) % s.n := by
    rw [State.released, Nat.mod_add_mod, Nat.add_assoc, Nat.add_comm 1 k]
  have tail : s.released.readyQueue = ((List.range s.released.readyCount).map Nat.succ).filterMap
      fun k => s.slots[(s.outCur + k) % s.n]?.map fun d => ((s.outCur + k) % s.n, d.seq) := by
    rw [List.filterMap_map]
    refine List.filterMap_congr fun k _ => ?_
    show (s.slots[(s.released.outCur + k) % s.n]?.map fun d => ((s.released.outCur + k) % s.n, d.seq)) = _
    rw [place]
    rfl
  rw [tail, State.readyQueue, hs.readyCount_released pool notEmpty, List.range_succ_eq_map]
  exact (List.sublist_cons_self _ _).filterMap _

end

/-! ### Rising numbers -/

/-- The numbers of a list strictly increase and lie below m. -/
def RisesBelow {α : Type} (f : α → Nat) (l : List α) (m : Nat) : Prop :=
  l.Pairwise (fun a b => f a < f b) ∧ ∀ a ∈ l, f a < m

theorem RisesBelow.sublist {α : Type} {f : α → Nat} {l l' : List α} {m : Nat} (rises : RisesBelow f l m)
    (part : l'.Sublist l) : RisesBelow f l' m :=
  ⟨rises.1.sublist part, fun a ha => rises.2 a (part.subset ha)⟩

theorem RisesBelow.succ {α : Type} {f : α → Nat} {l : List α} {m : Nat} (rises : RisesBelow f l m) :
    RisesBelow f l (m + 1) :=
  ⟨rises.1, fun a ha => Nat.lt_succ_of_lt (rises.2 a ha)⟩

/-- A list that rises below the number of e goes on rising with e. -/
theorem RisesBelow.append {α : Type} {f : α → Nat} {l : List α} {e : α} (rises : RisesBelow f l (f e)) :
    RisesBelow f (l ++ [e]) (f e + 1) := by
  refine ⟨List.pairwise_append.2 ⟨rises.1, List.pairwise_singleton _ _, fun a ha b hb => ?_⟩, fun a ha => ?_⟩
  · exact List.mem_singleton.1 hb ▸ rises.2 a ha
  · rcases List.mem_append.1 ha with old | new
    · exact rises.succ.2 a old
    · exact List.mem_singleton.1 new ▸ Nat.lt_succ_self _

/-- The ready log and the numbers of the ready queue rise below SEQ (42_capture.md R164). -/
theorem numbered_iff (s : State) :
    s.Numbered ↔ RisesBelow BitVec.toNat s.readyLog s.seq.toNat ∧
      RisesBelow (fun e : Nat × Word => e.2.toNat) s.readyQueue s.seq.toNat :=
  and_assoc.symm

/-! ### What leaves SEQ and the published numbers alone -/

/-- SEQ, the ready log and the ready queue are the same in t as in s. -/
structure State.SameNumbers (s t : State) : Prop where
  seq        : t.seq = s.seq
  readyLog   : t.readyLog = s.readyLog
  readyQueue : t.readyQueue = s.readyQueue

/-- SEQ and the ready log are the same in t as in s, and no slot has joined the queue. -/
structure State.NoNewNumber (s t : State) : Prop where
  seq        : t.seq = s.seq
  readyLog   : t.readyLog = s.readyLog
  readyQueue : t.readyQueue.Sublist s.readyQueue

theorem State.SameNumbers.noNewNumber {s t : State} (same : s.SameNumbers t) : s.NoNewNumber t :=
  ⟨same.seq, same.readyLog, same.readyQueue ▸ List.Sublist.refl _⟩

theorem State.NoNewNumber.numbered {s t : State} (noNew : s.NoNewNumber t) (numbered : s.Numbered) :
    t.Numbered := by
  obtain ⟨logRises, queueRises⟩ := (numbered_iff s).1 numbered
  rw [numbered_iff, noNew.seq, noNew.readyLog]
  exact ⟨logRises, queueRises.sublist noNew.readyQueue⟩

/-- A frame start stamps a time and no number (42_capture.md R159). -/
theorem frameStart_sameNumbers {s t : State} {g : Word} (h : frameStart s = .ok (t, g)) :
    s.SameNumbers t := by
  have seqs := frameStart_map_slots Slot.seq (fun _ _ => rfl) h
  rcases frameStart_cases h with ⟨-, rfl, -⟩ | ⟨-, -, rfl, -⟩ | ⟨d, -, -, -, rfl, -⟩ <;>
    exact ⟨rfl, rfl, readyQueue_congr rfl rfl seqs⟩

/-- Of the operations only ISR writes SEQ. -/
theorem Change.seq_eq {i : Instr} {s t : State} (change : Change i s t) (notIsr : i ≠ .isr) :
    t.seq = s.seq := by
  cases change with
  | isrReturns | isrServices => exact absurd rfl notIsr
  | unchanged | alloc | free | pub | rel | mode | start | stop | conv888 | conv565 | wbal | ksetup | kset
    | ksetp => rfl

/-- Of the operations only ISR and PUB publish a number. -/
theorem Change.noNewNumber {i : Instr} {s t : State} (change : Change i s t) (hs : s.Inv)
    (notIsr : i ≠ .isr) (notPub : ∀ slot q, i ≠ .pub slot q) : s.NoNewNumber t := by
  cases change with
  | unchanged | mode | start | stop | conv888 | conv565 | ksetup | kset | ksetp =>
    exact State.SameNumbers.noNewNumber ⟨rfl, rfl, rfl⟩
  | alloc | free => exact ⟨rfl, rfl, readyQueue_sublist_of_empty rfl⟩
  | pub => exact absurd rfl (notPub _ _)
  | rel pool notEmpty => exact ⟨rfl, rfl, hs.readyQueue_released pool notEmpty⟩
  | isrReturns | isrServices => exact absurd rfl notIsr
  | wbal found =>
    exact State.SameNumbers.noNewNumber
      ⟨rfl, rfl, readyQueue_congr rfl rfl (State.setSlot_map_slots Slot.seq found rfl)⟩

/-! ### What a frame end numbers -/

/-- A frame end with nothing attached skips the number (42_capture.md R158). -/
theorem frameEnd_skips {s t : State} {g : Word} (h : frameEnd s = .ok (t, g)) (unattached : s.attached = none) :
    t = { s with seq := s.seq + 1#32 } := by
  rcases frameEnd_cases h with ⟨-, ht, -⟩ | ⟨d, attached, -⟩
  · exact ht
  · exact absurd (unattached.symm.trans attached) (by simp)

theorem frameEnd_seq {s t : State} {g : Word} (h : frameEnd s = .ok (t, g)) : t.seq = s.seq + 1#32 := by
  rcases frameEnd_cases h with ⟨-, rfl, -⟩ | ⟨d, -, -, -, rfl, -⟩ <;> rfl

/-- A frame end with a slot attached stamps the number and publishes it (42_capture.md R158). -/
theorem frameEnd_numbers {s t : State} {g : Word} (hs : s.Inv) (h : frameEnd s = .ok (t, g)) {i : Nat}
    (attached : s.attached = some i) :
    t.readyQueue = s.readyQueue ++ [(i, s.seq)] ∧
      t.readyLog = if s.cbEn then s.readyLog ++ [s.seq] else s.readyLog := by
  obtain ⟨rfl, -⟩ := hs.attached i attached
  rcases frameEnd_cases h with ⟨unattached, -⟩ | ⟨d, -, found, notFull, rfl, -⟩
  · exact absurd (unattached.symm.trans attached) (by simp)
  · exact ⟨hs.readyQueue_publish (State.pool_of_slot found) notFull (s.stamped d) s.seq, rfl⟩

/-! ### The step of a serviced boundary, and every other step -/

/-- An operation presented on its own port runs. -/
theorem State.Runs.step_eq {s : State} {i : Instr} (runs : s.Runs i) :
    ∃ rest, step s = exec i { s with inputs := rest } := by
  obtain ⟨p, rest, next, decoded⟩ := runs
  exact ⟨rest, by simp [step, runNext, next, runEvent, runPacket, decoded]⟩

/-- ISR returns after the write-back, or services: frame end on a boundary, then frame start (42_capture.md R156). -/
theorem execIsr_cases {s s' : State} (h : execIsr s = .next s') :
    (¬ (s.session = .streaming ∧ genuine s.status0 = true) ∧
      ∃ r, s' = (s.writeBackStatus s.status0 s.status1).withResp r) ∨
    (s.session = .streaming ∧ genuine s.status0 = true ∧ ∃ u v flags flags' r,
      isrStep (isBoundary s.status0 s.status1) frameEnd (s.writeBackStatus s.status0 s.status1)
        flagServiced = .ok (u, flags) ∧
      isrStep (isFrameStart s.status1) frameStart u flags = .ok (v, flags') ∧ s' = v.withResp r) := by
  unfold execIsr at h
  dsimp only at h
  split at h
  next returns =>
    cases h
    refine .inl ⟨fun ⟨streaming, serves⟩ => ?_, _, rfl⟩
    rcases returns with notStreaming | spurious
    · exact notStreaming streaming
    · exact Bool.false_ne_true (spurious.symm.trans serves)
  next serviced =>
    obtain ⟨streaming, serves⟩ := not_or.1 serviced
    split at h
    · cases h
    next u flags boundary =>
      split at h
      · cases h
      next v flags' frame =>
        cases h
        exact .inr ⟨not_not.1 streaming, Bool.of_not_eq_false serves, u, v, flags, flags', _, boundary, frame, rfl⟩

theorem servicesABoundary_iff (s : State) :
    s.ServicesABoundary ↔ s.Runs .isr ∧ s.session = .streaming ∧ genuine s.status0 = true ∧
      isBoundary s.status0 s.status1 = true := by
  simp [State.ServicesABoundary, genuine, isBoundary]

/-- The handler's frame start, run or skipped, leaves the numbers alone. -/
theorem frameStart_step_sameNumbers {c : Bool} {s t : State} {flags g : Word}
    (h : isrStep c frameStart s flags = .ok (t, g)) : s.SameNumbers t :=
  isrStep_rule (P := s.SameNumbers) frameStart_sameNumbers h ⟨rfl, rfl, rfl⟩

/-- The state in which the handler classifies an interrupt: the packet taken, the status written back. -/
def State.classifying (s : State) (rest : List Event) : State :=
  State.writeBackStatus { s with inputs := rest } s.status0 s.status1

/-- The step of a serviced boundary numbers as its frame end does. -/
theorem step_of_servicesABoundary {s s' : State} (serviced : s.ServicesABoundary) (h : step s = .next s') :
    ∃ rest u g, frameEnd (s.classifying rest) = .ok (u, g) ∧ u.SameNumbers s' := by
  obtain ⟨runs, streaming, serves, isEnd⟩ := (servicesABoundary_iff s).1 serviced
  obtain ⟨rest, hstep⟩ := runs.step_eq
  rcases execIsr_cases (hstep.symm.trans h) with ⟨returns, -⟩ | ⟨-, -, u, v, _, _, r, boundary, frame, rfl⟩
  · exact absurd ⟨streaming, serves⟩ returns
  · rcases isrStep_cases boundary with ⟨skipped, -⟩ | ⟨g, -, ended, -⟩
    · exact absurd (isEnd.symm.trans skipped) (by decide)
    · obtain ⟨seq, log, queue⟩ := frameStart_step_sameNumbers frame
      exact ⟨rest, u, g, ended, seq, log, queue⟩

/-- Every other step leaves the numbers alone, or makes a change of an operation that is not ISR. -/
theorem step_of_not_servicesABoundary {s s' : State} (other : ¬ s.ServicesABoundary) (h : step s = .next s') :
    s.SameNumbers s' ∨ ∃ i rest t r, s.Runs i ∧ i ≠ .isr ∧ Change i { s with inputs := rest } t ∧
      s' = t.withResp r := by
  by_cases runs : s.Runs .isr
  · obtain ⟨rest, hstep⟩ := runs.step_eq
    rcases execIsr_cases (hstep.symm.trans h) with
      ⟨-, r, rfl⟩ | ⟨streaming, serves, u, v, _, _, r, boundary, frame, rfl⟩
    · exact .inl ⟨rfl, rfl, rfl⟩
    · rcases isrStep_cases boundary with ⟨-, rfl, -⟩ | ⟨_, isEnd, -⟩
      · obtain ⟨seq, log, queue⟩ := frameStart_step_sameNumbers frame
        exact .inl ⟨seq, log, queue⟩
      · exact absurd ((servicesABoundary_iff s).2 ⟨runs, streaming, serves, isEnd⟩) other
  · cases step_effect h with
    | quiet | environment => exact .inl ⟨rfl, rfl, rfl⟩
    | @receiver r => cases r <;> exact .inl ⟨rfl, rfl, rfl⟩
    | @operation i p rest t r next decoded change =>
      have presented : s.Runs i := ⟨p, rest, next, decoded⟩
      exact .inr ⟨i, rest, t, some r, presented, fun isr => runs (isr ▸ presented), change, rfl⟩

/-! ### Published numbers strictly increase -/

/-- The rule of R164 under a step that serviced no boundary and published nothing directly. -/
theorem numbered_of_not_servicesABoundary {s s' : State} (hs : s.Inv) (numbered : s.Numbered)
    (noPub : ∀ slot q, ¬ s.Runs (.pub slot q)) (other : ¬ s.ServicesABoundary) (h : step s = .next s') :
    s'.Numbered := by
  rcases step_of_not_servicesABoundary other h with same | ⟨i, rest, t, r, runs, notIsr, change, rfl⟩
  · exact same.noNewNumber.numbered numbered
  · have notPub (slot : Byte) (q : Word) : i ≠ .pub slot q := fun pub => noPub slot q (pub ▸ runs)
    exact (change.noNewNumber (hs.withInputs rest) notIsr notPub).numbered numbered

/-- The rule of R164 under a serviced boundary: the number skipped or published is the one SEQ passes. -/
theorem numbered_of_next {s t : State} (numbered : s.Numbered) (noWrap : s.seq.toNat + 1 < 2 ^ 32)
    (seq : t.seq = s.seq + 1#32)
    (log : t.readyLog = s.readyLog ∨ t.readyLog = s.readyLog ++ [s.seq])
    (queue : t.readyQueue = s.readyQueue ∨ ∃ i, t.readyQueue = s.readyQueue ++ [(i, s.seq)]) :
    t.Numbered := by
  obtain ⟨logRises, queueRises⟩ := (numbered_iff s).1 numbered
  have next : t.seq.toNat = s.seq.toNat + 1 := by
    rw [seq, BitVec.toNat_add]
    exact Nat.mod_eq_of_lt noWrap
  rw [numbered_iff, next]
  constructor
  · rcases log with log | log <;> rw [log]
    · exact logRises.succ
    · exact logRises.append (e := s.seq)
  · rcases queue with queue | ⟨i, queue⟩ <;> rw [queue]
    · exact queueRises.succ
    · exact queueRises.append (e := (i, s.seq))

/-! ### The rule of SEQ -/

theorem boundary_steps_seq {s s' : State} (serviced : s.ServicesABoundary) (h : step s = .next s') :
    s'.seq = s.seq + 1#32 := by
  obtain ⟨rest, u, g, ended, same⟩ := step_of_servicesABoundary serviced h
  have stepped := frameEnd_seq ended
  exact same.seq.trans stepped

theorem other_step_keeps_seq {s s' : State} (other : ¬ s.ServicesABoundary) (h : step s = .next s') :
    s'.seq = s.seq := by
  rcases step_of_not_servicesABoundary other h with same | ⟨i, rest, t, r, -, notIsr, change, rfl⟩
  · exact same.seq
  · exact change.seq_eq notIsr

theorem boundary_skips {s s' : State} (serviced : s.ServicesABoundary) (unattached : s.attached = none)
    (h : step s = .next s') : s'.readyQueue = s.readyQueue ∧ s'.readyLog = s.readyLog := by
  obtain ⟨rest, u, g, ended, same⟩ := step_of_servicesABoundary serviced h
  obtain rfl := frameEnd_skips ended unattached
  exact ⟨same.readyQueue, same.readyLog⟩

theorem boundary_publishes {s s' : State} (hs : s.Inv) (serviced : s.ServicesABoundary) {i : Nat}
    (attached : s.attached = some i) (h : step s = .next s') :
    s'.readyQueue = s.readyQueue ++ [(i, s.seq)] ∧
      s'.readyLog = if s.cbEn then s.readyLog ++ [s.seq] else s.readyLog := by
  obtain ⟨rest, u, g, ended, same⟩ := step_of_servicesABoundary serviced h
  obtain ⟨queue, log⟩ := frameEnd_numbers ((hs.withInputs rest).writeBackStatus _ _) ended attached
  exact ⟨same.readyQueue.trans queue, same.readyLog.trans log⟩

theorem numbered_of_servicesABoundary {s s' : State} (hs : s.Inv) (numbered : s.Numbered)
    (serviced : s.ServicesABoundary) (noWrap : s.seq.toNat + 1 < 2 ^ 32) (h : step s = .next s') :
    s'.Numbered := by
  have seq := boundary_steps_seq serviced h
  cases attached : s.attached with
  | none =>
    obtain ⟨queue, log⟩ := boundary_skips serviced attached h
    exact numbered_of_next numbered noWrap seq (.inl log) (.inl queue)
  | some i =>
    obtain ⟨queue, log⟩ := boundary_publishes hs serviced attached h
    refine numbered_of_next numbered noWrap seq ?_ (.inr ⟨i, queue⟩)
    split at log
    · exact .inr log
    · exact .inl log

/-- Settles O17: the step of a boundary and every other step, each a lemma above. -/
theorem sequenceCounterNumbersTheBoundaries : Obligations.SequenceCounterNumbersTheBoundaries := by
  intro s s' h
  refine ⟨fun serviced => boundary_steps_seq serviced h, fun other => other_step_keeps_seq other h,
    fun serviced unattached => boundary_skips serviced unattached h,
    fun i hs serviced attached => boundary_publishes hs serviced attached h,
    fun hs numbered noPub noWrap => ?_⟩
  by_cases serviced : s.ServicesABoundary
  · exact numbered_of_servicesABoundary hs numbered serviced noWrap h
  · exact numbered_of_not_servicesABoundary hs numbered noPub serviced h

end Sys2Proof.Machine
end

section
/-! PROOFS. A step is the presented operation, and memory has two writers: RX_DATA and the conversions. -/

namespace Sys2Proof.Machine

/-! ### The presented operation -/

/-- A packet of operation i on its own port runs i on the state with the event taken. -/
theorem step_of_packet {s : State} {p : Packet} {i : Instr} {rest : List Event}
    (next : s.inputs = .packet i.port p :: rest) (decoded : decode p = .instr i) :
    step s = exec i { s with inputs := rest } := by
  simp [step, runNext, next, runEvent, runPacket, decoded]

theorem decodeTableWord_eq_some_iff {nbits w : Nat} {i : Instr} :
    decodeTableWord nbits w = some i ↔ decode (Packet.ofTableWord nbits w) = .instr i := by
  unfold decodeTableWord
  cases decode (Packet.ofTableWord nbits w) <;> simp

/-- Settles O6: withFetchWord presents the packet on the port of its operation, and taking the event gives back s. -/
theorem stepRunsTheDecodedInstruction : Obligations.StepRunsTheDecodedInstruction := by
  refine ⟨fun s p i rest next decoded => step_of_packet next decoded, fun s w i h => ?_⟩
  have decoded := decodeTableWord_eq_some_iff.1 h
  have next : (s.withFetchWord 160 w).inputs =
      .packet i.port (Packet.ofTableWord 160 w) :: s.inputs := by
    simp [State.withFetchWord, presentedOnItsPort, decoded]
  exact step_of_packet next decoded

/-! ### The receiver's store -/

/-- RX_DATA is enabled inside the DMA pair while a frame arrives (20_memory.md R78). -/
theorem rxEnabled_data_iff (a : Word) (b : Byte) (s : State) :
    rxEnabled (.data a b) s = true ↔ s.session = .streaming ∧ s.frameActive = true ∧
      s.dmaStart.toNat ≤ a.toNat ∧ a.toNat < s.dmaEnd.toNat := by
  simp [rxEnabled, and_assoc]

theorem step_of_receiver {s : State} {r : RxStep} {rest : List Event} (next : s.inputs = .rx r :: rest)
    (enabled : rxEnabled r { s with inputs := rest } = true) :
    step s = .next ((rxEffect r { s with inputs := rest }).withResp none) := by
  simp [step, runNext, next, runEvent, runRx, enabled]

/-- Settles O9: the step is the enabled store, read back by the two read-after-write rules. -/
theorem receiverDataStoresOneByte : Obligations.ReceiverDataStoresOneByte := by
  intro s a b rest next streaming active lower upper memory
  have enabled : rxEnabled (.data a b) { s with inputs := rest } = true :=
    (rxEnabled_data_iff ..).2 ⟨streaming, active, lower, upper⟩
  exact ⟨Memory.write s.mem a.toNat b, step_of_receiver next enabled,
    Memory.read_write_same s.mem a.toNat b memory.1.1,
    fun a' other => Memory.read_write_other s.mem a.toNat a' b other⟩

/-- A receiver step that changes a byte is RX_DATA at its address. -/
theorem rxEffect_writes {r : RxStep} {s : State} {a : Nat}
    (written : Memory.read (rxEffect r s).mem a ≠ Memory.read s.mem a) :
    ∃ w b, r = .data w b ∧ w.toNat = a := by
  cases r with
  | data w b =>
    refine ⟨w, b, rfl, ?_⟩
    by_contra other
    exact written (Memory.read_write_other s.mem w.toNat a b (Ne.symm other))
  | fs | active | fe | extra => exact absurd rfl written

/-! ### The stores of the conversions -/

theorem State.mayDecode_of_decodable {s : State} {i : Byte} {d : Slot}
    (found : s.slots[i.toNat]? = some d) (decodes : decodable s i.toNat = true) : s.MayDecode i d :=
  ⟨found, ((decodable_iff s i.toNat).1 decodes).2.symm⟩

/-- The address lies in the admitted destination of a frame that slot may be converted to. -/
def State.ConvertsTo (s : State) (slot : Byte) (dst : Word) (bpp a : Nat) : Prop :=
  ∃ d, s.MayDecode slot d ∧ dst.toNat ≤ a ∧ a < dst.toNat + bpp * (d.w.toNat * d.h.toNat) ∧
    s.DestinationFree dst.toNat (bpp * (d.w.toNat * d.h.toNat))

/-- Where o has a next state, every byte it changes satisfies `region`. -/
def StoresIn (region : Nat → Prop) (s : State) (o : Out) : Prop :=
  ∀ s' a, o = .next s' → Memory.read s'.mem a ≠ Memory.read s.mem a → region a

theorem storesIn_refuse (region : Nat → Prop) (s : State) : StoresIn region s (refuse s) := by
  intro s' a answered written
  cases answered
  exact absurd rfl written

theorem storesIn_fault (region : Nat → Prop) (s : State) (f : Fault) : StoresIn region s (.fault f) := by
  intro s' a answered
  cases answered

/-- Every byte a conversion changes lies in its admitted destination. -/
theorem convertFrame_storesIn {slot : Byte} {dst : Word} {bpp : Nat} {bytesOf : Slot → Rgb → List Byte}
    (size : ∀ d p, (bytesOf d p).length = bpp) (s : State) :
    StoresIn (s.ConvertsTo slot dst bpp) s (convertFrame slot dst bpp bytesOf s) := by
  refine withDecodable_rule (storesIn_refuse _ s) fun d found decodes => ?_
  dsimp only
  split
  · exact storesIn_refuse _ s
  next admitted =>
    refine onSamples_rule (storesIn_refuse _ s) (fun _ => storesIn_fault _ s _)
      fun bs hbs s' a answered written => ?_
    obtain rfl := Host.Outcome.next.inj answered
    have length : bs.length = bpp * (d.w.toNat * d.h.toNat) := by
      rw [convertPixels_length (size d) hbs, raster_length]
    have inside : dst.toNat ≤ a ∧ a < dst.toNat + bs.length := by
      by_contra outside
      exact written (Memory.read_writeBytes_outside s.mem dst.toNat a bs (by omega))
    exact ⟨d, State.mayDecode_of_decodable found decodes, inside.1, length ▸ inside.2,
      (destinationAdmitted_iff ..).1 (Bool.of_not_eq_false admitted)⟩

theorem bytes888_length (d : Slot) (p : Rgb) : (bytes888 d p).length = 3 := rfl

theorem bytes565_length (d : Slot) (p : Rgb) : (bytes565 d p).length = 2 := rfl

theorem execConv888_storesIn (slot : Byte) (dst : Word) (s : State) :
    StoresIn (s.ConvertsTo slot dst 3) s (exec (.conv888 slot dst) s) :=
  convertFrame_storesIn bytes888_length s

theorem execConv565_storesIn (slot : Byte) (dst : Word) (s : State) :
    StoresIn (s.ConvertsTo slot dst 2) s (exec (.conv565 slot dst) s) :=
  convertFrame_storesIn bytes565_length s

/-! ### No other operation stores -/

theorem frameEnd_mem {s t : State} {g : Word} (h : frameEnd s = .ok (t, g)) : t.mem = s.mem := by
  rcases frameEnd_cases h with ⟨-, rfl, -⟩ | ⟨d, -, -, -, rfl, -⟩ <;> rfl

theorem frameStart_mem {s t : State} {g : Word} (h : frameStart s = .ok (t, g)) : t.mem = s.mem := by
  rcases frameStart_cases h with ⟨-, rfl, -⟩ | ⟨-, -, rfl, -⟩ | ⟨d, -, -, -, rfl, -⟩ <;> rfl

/-- A change leaves memory alone, or is a conversion's. -/
theorem Change.mem {i : Instr} {s t : State} (change : Change i s t) :
    t.mem = s.mem ∨ ∃ slot dst, i = .conv888 slot dst ∨ i = .conv565 slot dst := by
  cases change with
  | conv888 => exact .inr ⟨_, _, .inl rfl⟩
  | conv565 => exact .inr ⟨_, _, .inr rfl⟩
  | isrServices _ boundary frame =>
    have kept := handler_keeps State.mem frameEnd_mem frameStart_mem boundary frame
    exact .inl kept
  | unchanged | alloc | free | pub | rel | mode | start | stop | isrReturns | wbal | ksetup | kset
    | ksetp => exact .inl rfl

/-- Settles O25: of the effects of a step only an enabled RX_DATA and a conversion's change store. -/
theorem memoryIsWrittenOnlyByReceiverAndConversions :
    Obligations.MemoryIsWrittenOnlyByReceiverAndConversions := by
  intro s s' a h written
  cases step_effect h with
  | quiet | environment => exact absurd rfl written
  | receiver next enabled =>
    obtain ⟨w, b, rfl, rfl⟩ := rxEffect_writes written
    obtain ⟨streaming, active, lower, upper⟩ := (rxEnabled_data_iff ..).1 enabled
    exact .inl ⟨b, w, _, next, rfl, streaming, active, lower, upper⟩
  | operation _ next decoded change =>
    have runs := (step_of_packet next decoded).symm.trans h
    rcases change.mem with same | ⟨slot, dst, rfl | rfl⟩
    · exact absurd (congrArg (Memory.read · a) same) written
    · obtain ⟨d, decodes, inside⟩ := execConv888_storesIn _ _ _ _ a runs written
      exact .inr (.inl ⟨slot, dst, d, ⟨_, _, next, decoded⟩, decodes, inside⟩)
    · obtain ⟨d, decodes, inside⟩ := execConv565_storesIn _ _ _ _ a runs written
      exact .inr (.inr ⟨slot, dst, d, ⟨_, _, next, decoded⟩, decodes, inside⟩)

end Sys2Proof.Machine
end

section
/-! PROOFS. What an operation reads: the samples of every decode, and the refusal when one of them is malformed. -/

namespace Sys2Proof.Machine

/-! ### The sample at a pixel, as a number -/

theorem readLE_sampleBytes (s : State) (d : Slot) (x y : Nat) :
    Memory.readLE s.mem (d.sampleAt x y) (sampleBytes d.fmt) = s.rawSample d x y := by
  unfold sampleBytes State.rawSample State.byteAt
  split <;> simp [Memory.readLE]

/-- A container of 1024 or more has two bytes. -/
theorem sampleBytes_of_malformed {s : State} {d : Slot} {x y : Nat} (bad : 1024 ≤ s.rawSample d x y) :
    sampleBytes d.fmt = 2 := by
  unfold State.rawSample State.byteAt at bad
  unfold sampleBytes
  split at bad
  · omega
  next ten => exact if_neg ten

/-- A sample of the address space is its container's number, malformed from 1024 on (20_memory.md R73). -/
theorem sample_eq {s : State} {d : Slot} {x y : Nat} (legal : LegalFormat d.fmt)
    (space : d.sampleAt x y + sampleBytes d.fmt ≤ 2 ^ 32) :
    sample s.mem d x y =
      if 1024 ≤ s.rawSample d x y then .error .malformed else .ok (s.rawSample d x y) := by
  have hbps : bytesPerSample d.fmt = some (sampleBytes d.fmt) :=
    (bytesPerSample_eq_some_iff _ _).2 ⟨legal, rfl⟩
  have address : sampleAddress d (sampleBytes d.fmt) x y = d.sampleAt x y := rfl
  rcases sample_cases s.mem d x y _ hbps with ⟨-, value⟩ | ⟨past, -⟩
  · rw [value, address, readLE_sampleBytes]
    simp only [and_iff_right_of_imp sampleBytes_of_malformed]
  · omega

/-- The colour at a pixel is the one its id names (30_encoding.md R105). -/
theorem colour_eq (fmt : Half) (x y : Nat) :
    colour fmt x y = Colour.ofId (BitVec.ofNat 2 (colourId fmt x y)) := by
  have place : (x &&& 1) ||| ((y &&& 1) <<< 1) = x % 2 + 2 * (y % 2) := by
    rw [Nat.and_one_is_mod, Nat.and_one_is_mod]
    rcases Nat.mod_two_eq_zero_or_one x with hx | hx <;>
      rcases Nat.mod_two_eq_zero_or_one y with hy | hy <;> simp [hx, hy]
  unfold colour colourId
  simp only [place]
  congr 1
  apply BitVec.eq_of_toNat_eq
  simp [BitVec.extractLsb'_toNat, Nat.shiftRight_eq_div_pow]

theorem colour_cases (fmt : Half) (x y : Nat) :
    (colour fmt x y = .r ∧ colourId fmt x y = 0) ∨ (colour fmt x y = .gr ∧ colourId fmt x y = 1) ∨
      (colour fmt x y = .gb ∧ colourId fmt x y = 2) ∨ (colour fmt x y = .b ∧ colourId fmt x y = 3) := by
  have bound : colourId fmt x y < 4 := Nat.mod_lt _ (by decide)
  rw [colour_eq]
  interval_cases colourId fmt x y <;> simp [Colour.ofId]

theorem not_isBorder {d : Slot} {x y : Nat} (interior : d.Interior x y) : isBorder d x y = false := by
  obtain ⟨left, right, above, below⟩ := interior
  simp only [isBorder, Bool.or_eq_false_iff, beq_eq_false_iff_ne]
  omega

/-! ### Reads -/

/-- A read that ends with a value has read a value at every listed pixel. -/
def Reads {α : Type} (m : Memory) (d : Slot) (r : Except SampleStop α) (qs : List (Nat × Nat)) : Prop :=
  ∀ a, r = .ok a → ∀ q ∈ qs, ∃ v, sample m d q.1 q.2 = .ok v

/-- A read that stops at no address is malformed when one of the samples it reads is. -/
theorem Reads.malformed {α : Type} {m : Memory} {d : Slot} {r : Except SampleStop α} {qs : List (Nat × Nat)}
    (reads : Reads m d r qs) (addressed : Addressed r) {q : Nat × Nat} (read : q ∈ qs)
    (bad : sample m d q.1 q.2 = .error .malformed) : r = .error .malformed := by
  cases r with
  | ok a =>
    obtain ⟨v, good⟩ := reads a rfl q read
    cases bad.symm.trans good
  | error stop =>
    cases stop with
    | malformed => rfl
    | noAddress => exact absurd rfl addressed

section
variable {α β : Type} {m : Memory} {d : Slot} {x y : Nat} {ps qs : List (Nat × Nat)}

theorem reads_nil (r : Except SampleStop α) : Reads m d r [] := nofun

theorem reads_sample (x y : Nat) : Reads m d (sample m d x y) [(x, y)] := by
  intro v value q hq
  obtain rfl := List.mem_singleton.1 hq
  exact ⟨v, value⟩

/-- A sequence of two reads reads what each of them reads. -/
theorem Reads.bind {r : Except SampleStop α} {f : α → Except SampleStop β} (first : Reads m d r ps)
    (rest : ∀ a, r = .ok a → Reads m d (f a) qs) : Reads m d (r >>= f) (ps ++ qs) := by
  intro b value q hq
  cases r with
  | error stop => cases value
  | ok a =>
    rcases List.mem_append.1 hq with hq | hq
    · exact first a rfl q hq
    · exact rest a rfl b value q hq

theorem Reads.mono {r : Except SampleStop α} (reads : Reads m d r qs) (fewer : ps ⊆ qs) : Reads m d r ps :=
  fun a value q hq => reads a value q (fewer hq)

theorem orthogonal_reads :
    Reads m d (orthogonal m d x y) [(x - 1, y), (x + 1, y), (x, y - 1), (x, y + 1)] :=
  (reads_sample _ _).bind fun _ _ => (reads_sample _ _).bind fun _ _ =>
    (reads_sample _ _).bind fun _ _ => (reads_sample _ _).bind fun _ _ => reads_nil _

theorem diagonal_reads :
    Reads m d (diagonal m d x y)
      [(x - 1, y - 1), (x + 1, y - 1), (x - 1, y + 1), (x + 1, y + 1)] :=
  (reads_sample _ _).bind fun _ _ => (reads_sample _ _).bind fun _ _ =>
    (reads_sample _ _).bind fun _ _ => (reads_sample _ _).bind fun _ _ => reads_nil _

theorem horizontal_reads : Reads m d (horizontal m d x y) [(x - 1, y), (x + 1, y)] :=
  (reads_sample _ _).bind fun _ _ => (reads_sample _ _).bind fun _ _ => reads_nil _

theorem vertical_reads : Reads m d (vertical m d x y) [(x, y - 1), (x, y + 1)] :=
  (reads_sample _ _).bind fun _ _ => (reads_sample _ _).bind fun _ _ => reads_nil _

/-- An interior decode reads the samples of its colour's case (43_pixel.md R181). -/
theorem demosaic_reads (interior : d.Interior x y) :
    Reads m d (demosaic m d x y) (d.samplesRead x y) := by
  have own := reads_sample (m := m) (d := d) x y
  have orth := orthogonal_reads (m := m) (d := d) (x := x) (y := y)
  have diag := diagonal_reads (m := m) (d := d) (x := x) (y := y)
  have hor := horizontal_reads (m := m) (d := d) (x := x) (y := y)
  have ver := vertical_reads (m := m) (d := d) (x := x) (y := y)
  unfold demosaic Slot.samplesRead
  rw [if_neg (Bool.eq_false_iff.1 (not_isBorder interior))]
  rcases colour_cases d.fmt x y with ⟨col, id⟩ | ⟨col, id⟩ | ⟨col, id⟩ | ⟨col, id⟩ <;> simp only [col, id]
  · exact (own.bind fun _ _ => orth.bind fun _ _ => diag.bind fun _ _ => reads_nil _).mono (by simp)
  · exact (hor.bind fun _ _ => own.bind fun _ _ => ver.bind fun _ _ => reads_nil _).mono (by simp)
  · exact (ver.bind fun _ _ => own.bind fun _ _ => hor.bind fun _ _ => reads_nil _).mono (by simp)
  · exact (diag.bind fun _ _ => orth.bind fun _ _ => own.bind fun _ _ => reads_nil _).mono (by simp)

/-- A conversion reads what the decode of each of its pixels reads. -/
theorem convertPixels_reads {bytesOf : Rgb → List Byte} {pixels : List (Nat × Nat)}
    (listed : (x, y) ∈ pixels) (decode : Reads m d (demosaic m d x y) qs) :
    Reads m d (convertPixels m d bytesOf pixels) qs := by
  induction pixels with
  | nil => cases listed
  | cons p pixels ih =>
    unfold convertPixels
    rcases List.mem_cons.1 listed with rfl | later
    · exact (decode.bind fun _ _ => reads_nil _).mono (by simp)
    · exact (reads_nil _).bind fun _ _ => ((ih later).bind fun _ _ => reads_nil _).mono (by simp)

end

/-! ### The samples WBAL draws -/

theorem seedAfter_succ (seed : Word) (k : Nat) : seedAfter seed (k + 1) = wbNext (seedAfter seed k) := by
  rw [seedAfter, wbNext, BitVec.ofNat_add, BitVec.ofNat_mul, BitVec.ofNat_toNat, BitVec.setWidth_eq]

theorem seedAfter_one (seed : Word) : seedAfter seed 1 = wbNext seed := seedAfter_succ seed 0

/-- Steps of the generator add up. -/
theorem seedAfter_add (seed : Word) (j k : Nat) :
    seedAfter seed (j + k) = seedAfter (seedAfter seed j) k := by
  induction k with
  | zero => rfl
  | succ k ih => rw [← Nat.add_assoc, seedAfter_succ, seedAfter_succ, ih]

theorem drawn_add (seed : Word) (j k dim : Nat) :
    drawn seed (j + k) dim = drawn (seedAfter seed j) k dim := by
  unfold drawn
  rw [Nat.add_assoc, seedAfter_add]

/-- A coordinate is mapped from the generator's value after its step (44_whitebalance.md R211, R212). -/
theorem wbMap_wbValue (seed : Word) (dim : Nat) : wbMap (wbValue (wbNext seed)) dim = drawn seed 0 dim := by
  rw [drawn, seedAfter_succ]
  rfl

theorem drawn_bounds (seed : Word) (k : Nat) {dim : Nat} (h : 3 ≤ dim) :
    1 ≤ drawn seed k dim ∧ drawn seed k dim + 2 ≤ dim := by
  have := Nat.mod_lt ((seedAfter seed (k + 1)).toNat / 65536 % 32768) (show 0 < dim - 2 by omega)
  unfold drawn
  omega

/-- A round of n + 1 samples decodes the pixel drawn by two steps, then goes on with n samples. -/
theorem wbRound_succ (m : Memory) (d : Slot) (n : Nat) (seed : Word) (mx : Rgb) :
    wbRound m d (n + 1) seed mx =
      demosaic m d (drawn seed 0 d.w.toNat) (drawn seed 1 d.h.toNat) >>= fun p =>
        wbRound m d n (seedAfter seed 2) (mx.max p) := by
  rw [drawn_add seed 1 0, ← wbMap_wbValue, ← wbMap_wbValue, seedAfter_succ seed 1, seedAfter_one]
  rfl

/-- A round of n samples makes 2 n steps of the generator (44_whitebalance.md R210). -/
theorem wbRound_seed {m : Memory} {d : Slot} {n : Nat} {seed : Word} {mx : Rgb} {r : Word × Rgb}
    (h : wbRound m d n seed mx = .ok r) : r.1 = seedAfter seed (2 * n) := by
  induction n generalizing seed mx with
  | zero =>
    cases h
    rfl
  | succ n ih =>
    rw [wbRound_succ] at h
    cases hp : demosaic m d (drawn seed 0 d.w.toNat) (drawn seed 1 d.h.toNat) with
    | error stop =>
      rw [hp] at h
      cases h
    | ok p =>
      rw [hp] at h
      rw [ih h, ← seedAfter_add, Nat.mul_succ, Nat.add_comm]

section
variable {m : Memory} {d : Slot} {qs : List (Nat × Nat)}

/-- A round reads what the decode of each of its samples reads. -/
theorem wbRound_reads {n j : Nat} {seed : Word} {mx : Rgb} (hj : j < n)
    (decode : Reads m d
      (demosaic m d (drawn seed (2 * j) d.w.toNat) (drawn seed (2 * j + 1) d.h.toNat)) qs) :
    Reads m d (wbRound m d n seed mx) qs := by
  induction n generalizing j seed mx with
  | zero => omega
  | succ n ih =>
    rw [wbRound_succ]
    cases j with
    | zero => exact (decode.bind fun _ _ => reads_nil _).mono (by simp)
    | succ j =>
      rw [show 2 * (j + 1) = 2 + 2 * j by omega, Nat.add_assoc, drawn_add, drawn_add] at decode
      exact (reads_nil _).bind fun _ _ => ih (by omega) decode

/-- The rounds read what the decode of each of their samples reads, sample j in round j / samples. -/
theorem wbRounds_reads {samples rounds j : Nat} {seed : Word} {total : Rgb} (hj : j < samples * rounds)
    (decode : Reads m d
      (demosaic m d (drawn seed (2 * j) d.w.toNat) (drawn seed (2 * j + 1) d.h.toNat)) qs) :
    Reads m d (wbRounds m d samples rounds seed total) qs := by
  induction rounds generalizing j seed total with
  | zero => omega
  | succ rounds ih =>
    unfold wbRounds
    by_cases first : j < samples
    · exact ((wbRound_reads first decode).bind fun _ _ => reads_nil _).mono (by simp)
    · refine (reads_nil _).bind fun r round => ?_
      obtain ⟨k, rfl⟩ := Nat.exists_eq_add_of_le (Nat.le_of_not_lt first)
      rw [Nat.mul_add, Nat.add_assoc, drawn_add, drawn_add, ← wbRound_seed round] at decode
      refine ih ?_ decode
      rw [Nat.mul_succ] at hj
      omega

end

end Sys2Proof.Machine
end

section
/-! PROOFS. Refusals of the pixel operations: a malformed container, and a destination that is not admitted. -/

namespace Sys2Proof.Machine

/-! ### The operations on a slot that may be decoded -/

section
variable {s : State} {i : Byte} {d : Slot} (decodes : s.MayDecode i d) (legal : LegalFormat d.fmt)
include decodes legal

/-- The shared checks (1) and (2) of 43_pixel.md R180 pass. -/
theorem withDecodable_of_mayDecode (k : Slot → Out) : withDecodable s i k = k d := by
  obtain ⟨found, may⟩ := decodes
  have passes : decodable s i.toNat = true :=
    (decodable_iff s i.toNat).2 ⟨(List.getElem?_eq_some_iff.1 found).1, may.symm⟩
  have hbps := (bytesPerSample_eq_some_iff d.fmt _).2 ⟨legal, rfl⟩
  simp [withDecodable, withSlot, found, passes, hbps]

theorem withPixel_of_mayDecode {x y : Word} (hx : x.toNat < d.w.toNat) (hy : y.toNat < d.h.toNat)
    (k : Slot → Out) : withPixel s i x y k = k d := by
  rw [withPixel, withDecodable_of_mayDecode decodes legal, if_pos ⟨hx, hy⟩]

/-- A pixel operation whose decode is malformed is refused (43_pixel.md R180 check 4). -/
theorem pixel_malformed {x y : Word} (hx : x.toNat < d.w.toNat) (hy : y.toNat < d.h.toNat)
    (bad : demosaic s.mem d x.toNat y.toNat = .error .malformed) (k : Slot → Rgb → Out) :
    (withPixel s i x y fun d => onSamples s (demosaic s.mem d x.toNat y.toNat) (k d)) =
      .next (s.answering .illegal) := by
  rw [withPixel_of_mayDecode decodes legal hx hy, bad]
  rfl

/-- A conversion is refused for its destination, or goes on with its pixels. -/
theorem convertFrame_of_mayDecode (dst : Word) (bpp : Nat) (bytesOf : Slot → Rgb → List Byte) :
    convertFrame i dst bpp bytesOf s =
      if destinationAdmitted s dst.toNat (bpp * (d.w.toNat * d.h.toNat)) = false then refuse s
      else
        onSamples s (convertPixels s.mem d (bytesOf d) (raster d.w.toNat d.h.toNat)) fun bs =>
          respond (s.setMem (Memory.writeBytes s.mem dst.toNat bs)) .ok
            (word32 (bpp * (d.w.toNat * d.h.toNat))) :=
  withDecodable_of_mayDecode decodes legal _

/-- A conversion to a region that is not admitted is refused (20_memory.md R87). -/
theorem convertFrame_bad_destination {dst : Word} {bpp : Nat} (bytesOf : Slot → Rgb → List Byte)
    (bad : ¬ s.DestinationFree dst.toNat (bpp * (d.w.toNat * d.h.toNat))) :
    convertFrame i dst bpp bytesOf s = .next (s.answering .illegal) := by
  rw [← destinationAdmitted_iff, Bool.not_eq_true] at bad
  rw [convertFrame_of_mayDecode decodes legal, if_pos bad]
  rfl

/-- A conversion whose pixels read a malformed container is refused, whatever its destination. -/
theorem convertFrame_malformed {dst : Word} {bpp : Nat} {bytesOf : Slot → Rgb → List Byte}
    (bad : convertPixels s.mem d (bytesOf d) (raster d.w.toNat d.h.toNat) = .error .malformed) :
    convertFrame i dst bpp bytesOf s = .next (s.answering .illegal) := by
  rw [convertFrame_of_mayDecode decodes legal, bad]
  exact ite_self _

end

/-- Settles O52: both conversions are convertFrame, which checks the destination before it reads. -/
theorem conversionsRefuseABadDestination : Obligations.ConversionsRefuseABadDestination := by
  intro s i d dst decodes legal
  exact ⟨convertFrame_bad_destination decodes legal bytes888,
    convertFrame_bad_destination decodes legal bytes565⟩

/-! ### Malformed containers -/

section
variable {s : State} {d : Slot} (legal : LegalFormat d.fmt) (ten : d.fmt.toNat % 16 = 9)
  (space : ∀ u v, u < d.w.toNat → v < d.h.toNat → d.sampleAt u v + 2 ≤ 2 ^ 32)
include legal ten space

theorem tenBit_sample_eq {x y : Nat} (hx : x < d.w.toNat) (hy : y < d.h.toNat) :
    sample s.mem d x y =
      if 1024 ≤ s.rawSample d x y then .error .malformed else .ok (s.rawSample d x y) := by
  have two : sampleBytes d.fmt = 2 := by simp [sampleBytes, ten]
  exact sample_eq legal (two ▸ space x y hx hy)

theorem tenBit_frameAddressed : FrameAddressed s.mem d := by
  intro x y hx hy
  rw [tenBit_sample_eq legal ten space hx hy]
  split <;> simp [Addressed]

/-- A read of the samples around an interior pixel is malformed when one of their containers is. -/
theorem Reads.malformed_of_malformedAround {α : Type} {r : Except SampleStop α} {x y : Nat}
    (interior : d.Interior x y) (around : s.MalformedAround d x y)
    (reads : Reads s.mem d r (d.samplesRead x y)) (addressed : Addressed r) : r = .error .malformed := by
  obtain ⟨q, read, bad⟩ := around
  obtain ⟨hx, hy⟩ := Slot.samplesRead_in_frame interior read
  refine reads.malformed addressed read ?_
  rw [tenBit_sample_eq legal ten space hx hy, if_pos bad]

theorem demosaic_malformed {x y : Nat} (interior : d.Interior x y) (around : s.MalformedAround d x y) :
    demosaic s.mem d x y = .error .malformed := by
  obtain ⟨-, right, -, below⟩ := id interior
  exact (demosaic_reads interior).malformed_of_malformedAround legal ten space interior around
    (demosaic_addressed (tenBit_frameAddressed legal ten space) (by omega) (by omega))

theorem convertPixels_malformed {x y : Nat} (bytesOf : Rgb → List Byte) (interior : d.Interior x y)
    (around : s.MalformedAround d x y) :
    convertPixels s.mem d bytesOf (raster d.w.toNat d.h.toNat) = .error .malformed := by
  obtain ⟨-, right, -, below⟩ := id interior
  have listed : (x, y) ∈ raster d.w.toNat d.h.toNat := mem_raster.2 ⟨by omega, by omega⟩
  exact (convertPixels_reads listed (demosaic_reads interior)).malformed_of_malformedAround
    legal ten space interior around
    (convertPixels_addressed (tenBit_frameAddressed legal ten space) bytesOf fun _ hp => mem_raster.1 hp)

theorem wbRounds_malformed {samples rounds j : Nat} (hw : 3 ≤ d.w.toNat) (hh : 3 ≤ d.h.toNat)
    (hj : j < samples * rounds)
    (around : s.MalformedAround d (d.sampledPixel j).1 (d.sampledPixel j).2) (total : Rgb) :
    wbRounds s.mem d samples rounds d.seed total = .error .malformed := by
  have interior : d.Interior (d.sampledPixel j).1 (d.sampledPixel j).2 := by
    obtain ⟨left, right⟩ := drawn_bounds d.seed (2 * j) hw
    obtain ⟨above, below⟩ := drawn_bounds d.seed (2 * j + 1) hh
    exact ⟨left, right, above, below⟩
  exact (wbRounds_reads hj (demosaic_reads interior)).malformed_of_malformedAround
    legal ten space interior around
    (wbRounds_addressed (tenBit_frameAddressed legal ten space) hw hh _ _ _ _)

end

/-- Settles O49: each operation reads every container its decodes read, all of them in the address space. -/
theorem malformedContainersAreRefused : Obligations.MalformedContainersAreRefused := by
  intro s i d decodes legal ten space
  refine ⟨fun x y dst interior around => ?_, fun samples rounds j hw hh hsamples hrounds hj around => ?_⟩
  · obtain ⟨-, right, -, below⟩ := id interior
    have hx : x.toNat < d.w.toNat := by omega
    have hy : y.toNat < d.h.toNat := by omega
    have bytes (bytesOf : Rgb → List Byte) := convertPixels_malformed legal ten space bytesOf interior around
    have pixel := pixel_malformed decodes legal hx hy
      (demosaic_malformed legal ten space interior around)
    exact ⟨pixel _, pixel _, pixel _,
      convertFrame_malformed decodes legal (bytes _), convertFrame_malformed decodes legal (bytes _)⟩
  · have guard : ¬ (d.w.toNat < 3 ∨ d.h.toNat < 3 ∨ 65535 < samples.toNat ∨ 65535 < rounds.toNat) := by
      omega
    show execWbal i samples rounds s = _
    rw [execWbal, withDecodable_of_mayDecode decodes legal, if_neg guard,
      wbRounds_malformed legal ten space hw hh hj around]
    rfl

end Sys2Proof.Machine
end

section
/-! PROOFS. The decoder as two facts: a packet decodes to i exactly when it carries i's code and i's operands. -/

namespace Sys2Proof

/-! ### The fields of W0 -/

/-- The sel field of a head word is the sel it was made of. -/
@[simp] theorem Packet.sel_mk_headWord (op sel : Byte) (imm : Half) (w1 w2 w3 w4 : Word) :
    Packet.sel ⟨headWord op sel imm, w1, w2, w3, w4⟩ = sel := by
  rw [Packet.sel, headWord, BitVec.extractLsb'_append_eq_of_le (by decide),
    BitVec.extractLsb'_append_eq_of_add_le (by decide)]
  exact BitVec.extractLsb'_eq_self

/-- The imm field of a head word is the imm it was made of. -/
@[simp] theorem Packet.imm_mk_headWord (op sel : Byte) (imm : Half) (w1 w2 w3 w4 : Word) :
    Packet.imm ⟨headWord op sel imm, w1, w2, w3, w4⟩ = imm := by
  rw [Packet.imm, headWord, BitVec.extractLsb'_append_eq_of_le (by decide),
    BitVec.extractLsb'_append_eq_of_le (by decide)]
  exact BitVec.extractLsb'_eq_self

theorem Packet.op_toNat (p : Packet) : p.op.toNat = p.w0.toNat % 256 := by
  simp [Packet.op]

theorem Packet.sel_eq_ofNat (p : Packet) : p.sel = BitVec.ofNat 8 (p.w0.toNat / 256) := by
  simp [Packet.sel, BitVec.extractLsb', Nat.shiftRight_eq_div_pow]

theorem Packet.imm_eq_ofNat (p : Packet) : p.imm = BitVec.ofNat 16 (p.w0.toNat / 65536) := by
  simp [Packet.imm, BitVec.extractLsb', Nat.shiftRight_eq_div_pow]

/-- START's bit is bit 16 of W0 (30_encoding.md R103). -/
theorem Packet.imm_getLsbD_zero (p : Packet) : p.imm.getLsbD 0 = (p.w0.toNat / 65536 % 2 == 1) := by
  rw [Packet.imm_eq_ofNat, BitVec.getLsbD_ofNat, Nat.testBit_zero]
  rfl

/-! ### Operations and their codes -/

/-- One operation for each code, its operands zero. -/
def Instr.onePerCode : List Instr :=
  [.alloc 0, .free, .taf, .pub 0 0, .tar, .rel, .desc 0, .gains 0, .start false, .stop, .isr, .mode 0 0 0 0,
    .getpix 0 0 0, .pix888 0 0 0, .pix565 0 0 0, .conv888 0 0, .conv565 0 0, .wbal 0 0 0,
    .ksetup 0 0 0 0 0, .kset 0 0, .ksetp 0 0, .kget 0, .kinfo 0]

/-- The codes of R103 are the codes of operations, and no others are. -/
theorem exists_opcode_eq_iff (c : Byte) :
    (∃ i : Instr, i.opcode = c) ↔ c.toNat ∈ Instr.onePerCode.map (·.opcode.toNat) := by
  constructor
  · rintro ⟨i, rfl⟩
    cases i <;> (dsimp only [Instr.opcode]; decide)
  · intro listed
    obtain ⟨i, -, code⟩ := List.mem_map.1 listed
    exact ⟨i, BitVec.eq_of_toNat_eq code⟩

/-- The port of an operation goes by its code: P for TAF, PUB and ISR (30_encoding.md R103). -/
theorem Instr.port_eq (i : Instr) :
    i.port = if i.opcode.toNat = 0x12 ∨ i.opcode.toNat = 0x13 ∨ i.opcode.toNat = 0x22 then .interrupt
      else .task := by
  cases i <;> rfl

/-! ### Operands read from a packet -/

/-- Operation i with each operand replaced by the packet field R103 gives it (30_encoding.md R103). -/
def Instr.operandsFrom (p : Packet) : Instr → Instr
  | .alloc _ => .alloc p.imm
  | .free => .free
  | .taf => .taf
  | .pub _ _ => .pub p.sel p.w1
  | .tar => .tar
  | .rel => .rel
  | .desc _ => .desc p.sel
  | .gains _ => .gains p.sel
  | .start _ => .start (p.imm.getLsbD 0)
  | .stop => .stop
  | .isr => .isr
  | .mode _ _ _ _ => .mode p.imm p.w1 p.w2 p.w3
  | .getpix _ _ _ => .getpix p.sel p.w1 p.w2
  | .pix888 _ _ _ => .pix888 p.sel p.w1 p.w2
  | .pix565 _ _ _ => .pix565 p.sel p.w1 p.w2
  | .conv888 _ _ => .conv888 p.sel p.w1
  | .conv565 _ _ => .conv565 p.sel p.w1
  | .wbal _ _ _ => .wbal p.sel p.w1 p.w2
  | .ksetup _ _ _ _ _ => .ksetup p.sel p.w1 p.w2 p.w3 p.w4
  | .kset _ _ => .kset p.sel p.w1
  | .ksetp _ _ => .ksetp p.sel p.imm
  | .kget _ => .kget p.sel
  | .kinfo _ => .kinfo p.sel

/-- A packet that carries the code of i decodes to i with the packet's operands. -/
theorem decode_of_opcode {p : Packet} {i : Instr} (code : i.opcode = p.op) :
    decode p = .instr (i.operandsFrom p) := by
  unfold decode
  rw [← code]
  cases i <;> rfl

/-- What the decoder reads from a packet carries the packet's code and the packet's operands. -/
theorem opcode_and_operands_of_decode {p : Packet} {i : Instr} (decoded : decode p = .instr i) :
    i.opcode = p.op ∧ i.operandsFrom p = i := by
  unfold decode at decoded
  split at decoded <;> cases decoded
  all_goals next code => exact ⟨code.symm, rfl⟩

theorem decode_eq_instr_iff {p : Packet} {i : Instr} :
    decode p = .instr i ↔ i.opcode = p.op ∧ i.operandsFrom p = i := by
  refine ⟨opcode_and_operands_of_decode, fun ⟨code, operands⟩ => ?_⟩
  rw [decode_of_opcode code, operands]

theorem exists_decode_iff {p : Packet} :
    (∃ i, decode p = .instr i) ↔ ∃ i : Instr, i.opcode = p.op :=
  ⟨fun ⟨i, decoded⟩ => ⟨i, (decode_eq_instr_iff.1 decoded).1⟩,
    fun ⟨i, code⟩ => ⟨i.operandsFrom p, decode_of_opcode code⟩⟩

theorem op_of_decode_eq_unknownOp {p : Packet} {op : Byte} (decoded : decode p = .unknownOp op) :
    op = p.op := by
  unfold decode at decoded
  split at decoded <;> cases decoded
  rfl

/-- A packet that decodes to no operation is unknown, by the op it carries. -/
theorem decode_eq_unknownOp {p : Packet} (unknown : ∀ i, decode p ≠ .instr i) :
    decode p = .unknownOp p.op := by
  cases decoded : decode p with
  | instr i => exact absurd decoded (unknown i)
  | unknownOp op => rw [op_of_decode_eq_unknownOp decoded]

/-! ### Round trip -/

theorem encode_op (i : Instr) : (encode i).op = i.opcode := by
  cases i <;> exact Laws.headWord_op _ _ _

/-- The encoder writes every operand to the field the decoder reads it from. -/
theorem Instr.operandsFrom_encode (i : Instr) : i.operandsFrom (encode i) = i := by
  cases i with
  | start callback => cases callback <;> rfl
  | _ => simp [operandsFrom, encode]

/-- Settles O1: the encoding carries the code and the operands of its operation. -/
theorem decodeOfEncodeIsTheInstruction : Obligations.DecodeOfEncodeIsTheInstruction := fun i =>
  decode_eq_instr_iff.2 ⟨(encode_op i).symm, i.operandsFrom_encode⟩

/-! ### The codes of R103, and the fields each operation uses -/

/-- Settles O3: each code is the code of an operation, which the packet's fields complete. -/
theorem decoderMatchesOpAlone : Obligations.DecoderMatchesOpAlone := by
  intro p
  dsimp only
  rw [← p.op_toNat, ← p.sel_eq_ofNat, ← p.imm_eq_ofNat, ← p.imm_getLsbD_zero]
  have reads (i : Instr) (op : p.op.toNat = i.opcode.toNat) : decode p = .instr (i.operandsFrom p) :=
    decode_of_opcode (BitVec.eq_of_toNat_eq op.symm)
  refine ⟨reads (.alloc 0), reads .free, reads .taf, reads (.pub 0 0), reads .tar, reads .rel,
    reads (.desc 0), reads (.gains 0), reads (.start false), reads .stop, reads .isr, reads (.mode 0 0 0 0),
    reads (.getpix 0 0 0), reads (.pix888 0 0 0), reads (.pix565 0 0 0), reads (.conv888 0 0),
    reads (.conv565 0 0), reads (.wbal 0 0 0), reads (.ksetup 0 0 0 0 0), reads (.kset 0 0),
    reads (.ksetp 0 0), reads (.kget 0), reads (.kinfo 0), fun i decoded => ?_, fun i decoded => ?_,
    exists_decode_iff.trans (exists_opcode_eq_iff p.op), decode_eq_unknownOp⟩
  · rw [i.port_eq, (decode_eq_instr_iff.1 decoded).1]
  · exact (decode_eq_instr_iff.1 decoded).1

/-- The packets agree on the fields that R103 lists as used by the operation of code op (30_encoding.md R103). -/
def Packet.AgreeOnUsed (op : Nat) (p q : Packet) : Prop :=
  (op ∈ [0x13, 0x16, 0x17, 0x30, 0x31, 0x32, 0x33, 0x34, 0x35, 0x40, 0x41, 0x42, 0x43, 0x44] → p.sel = q.sel) ∧
  (op ∈ [0x10, 0x23, 0x42] → p.imm = q.imm) ∧
  (op = 0x20 → p.imm.getLsbD 0 = q.imm.getLsbD 0) ∧
  (op ∈ [0x13, 0x23, 0x30, 0x31, 0x32, 0x33, 0x34, 0x35, 0x40, 0x41] → p.w1 = q.w1) ∧
  (op ∈ [0x23, 0x30, 0x31, 0x32, 0x35, 0x40] → p.w2 = q.w2) ∧
  (op ∈ [0x23, 0x40] → p.w3 = q.w3) ∧
  (op ∈ [0x40] → p.w4 = q.w4)

/-- Two packets give an operation the same operands exactly when they agree on the fields it uses. -/
theorem Instr.operandsFrom_eq_iff (i : Instr) (p q : Packet) :
    i.operandsFrom p = i.operandsFrom q ↔ Packet.AgreeOnUsed i.opcode.toNat p q := by
  cases i <;> simp [operandsFrom, opcode, Packet.AgreeOnUsed]

/-- What a packet decodes to, encoded again, agrees with the packet on the used fields. -/
theorem agreeOnUsed_encode_of_decode {p : Packet} {i : Instr} (decoded : decode p = .instr i) :
    Packet.AgreeOnUsed p.op.toNat (encode i) p := by
  obtain ⟨code, operands⟩ := decode_eq_instr_iff.1 decoded
  rw [← code, ← i.operandsFrom_eq_iff, i.operandsFrom_encode, operands]

/-- The op and the used fields decide what a packet decodes to. -/
theorem decode_eq_of_agreeOnUsed {p q : Packet} (op : p.op = q.op)
    (used : Packet.AgreeOnUsed p.op.toNat p q) : decode p = decode q := by
  by_cases known : ∃ i : Instr, i.opcode = p.op
  · obtain ⟨i, code⟩ := known
    rw [decode_of_opcode code, decode_of_opcode (code.trans op)]
    rw [← code, ← i.operandsFrom_eq_iff] at used
    rw [used]
  · have unknown (r : Packet) (same : r.op = p.op) : decode r = .unknownOp p.op := same ▸
      decode_eq_unknownOp fun i decoded => known ⟨i, (decode_eq_instr_iff.1 decoded).1.trans same⟩
    rw [unknown p rfl, unknown q op.symm]

/-- Settles O4: the used fields are the ones the operands are read from. -/
theorem decodingReadsExactlyTheUsedFields : Obligations.DecodingReadsExactlyTheUsedFields := fun _ _ =>
  ⟨fun _ decoded => agreeOnUsed_encode_of_decode decoded, fun op sel imm bit a0 a1 a2 a3 =>
    decode_eq_of_agreeOnUsed op ⟨sel, imm, bit, a0, a1, a2, a3⟩⟩

/-- Settles O2: each packet is evaluated. -/
theorem packetsOfTheVectorsDecode : Obligations.PacketsOfTheVectorsDecode :=
  ⟨rfl, rfl, rfl, rfl, rfl, rfl, rfl, rfl, rfl⟩

end Sys2Proof
end

section
/-! PROOFS. What is refused before it acts: unknown or misplaced packets, and ill-formed operands. -/

namespace Sys2Proof.Machine

/-- Settles O7: a packet runs an operation only on that operation's own port. -/
theorem unknownOpOrWrongPortIsRefused : Obligations.UnknownOpOrWrongPortIsRefused := by
  intro s port p rest next notHere
  have taken : step s = runPacket port p { s with inputs := rest } := by
    simp [step, runNext, next, runEvent]
  rw [taken]
  rcases runPacket_cases port p { s with inputs := rest } with refused | ⟨i, decoded, onPort, -⟩
  · exact refused.trans (refuse_eq _)
  · exact absurd onPort (notHere i decoded)

/-- A selector past the largest pool names no slot of a smaller one (30_encoding.md R102). -/
theorem withSlot_eq_refuse {s : State} {slot : Byte} (past : slotSelWf slot = false) (pool : s.n ≤ 20)
    (k : Slot → Out) : withSlot s slot k = .next (s.answering .illegal) := by
  have beyond : s.n ≤ slot.toNat := pool.trans (not_lt.1 (of_decide_eq_false past))
  rw [withSlot, List.getElem?_eq_none beyond, refuse_eq]

/-- A selector past the last control names none (30_encoding.md R102). -/
theorem withCtrl_eq_refuse {s : State} {ctl : Byte} (past : ctlSelWf ctl = false)
    (k : Fin 16 → Ctrl → Out) : withCtrl s ctl k = .next (s.answering .illegal) := by
  have beyond : ¬ ctl.toNat < 16 := of_decide_eq_false past
  rw [withCtrl, dif_neg beyond, refuse_eq]

/-- KSETUP refuses a setup that breaks min <= default <= max (45_control.md R230). -/
theorem execKsetup_eq_refuse {s : State} {ctl : Byte} {min max step default : Word}
    (broken : setupWf min max default = false) :
    execKsetup ctl min max step default s = .next (s.answering .illegal) := by
  refine withCtrl_rule (P := (· = .next (s.answering .illegal))) (refuse_eq s) fun k _ => ?_
  rw [if_neg (by simpa [setupWf] using broken), refuse_eq]

/-- Settles O5: the selector is checked before anything else, and KSETUP checks its bounds before it writes. -/
theorem illFormedOperandsAreRefused : Obligations.IllFormedOperandsAreRefused := by
  intro i s illFormed pool
  cases i with
  | alloc | free | taf | tar | rel | start | stop | isr | mode => cases illFormed
  | pub slot | desc slot | gains slot | getpix slot | pix888 slot | pix565 slot | conv888 slot
  | conv565 slot | wbal slot => exact withSlot_eq_refuse illFormed pool _
  | kset ctl | ksetp ctl | kget ctl | kinfo ctl =>
    rw [exec]
    exact withCtrl_eq_refuse illFormed _
  | ksetup ctl min max step default =>
    rw [exec]
    rcases Bool.and_eq_false_iff.1 illFormed with past | broken
    · exact withCtrl_eq_refuse past _
    · exact execKsetup_eq_refuse broken

end Sys2Proof.Machine
end

section
/-! PROOFS. The ring: its capacity, one equation per branch of each of its operations (41_ring.md R130 to R137), and
the ready queue as a first-in-first-out queue (R140). -/

namespace Sys2Proof.Machine

/-! ### Capacity -/

section
variable {s : State} (hs : s.Inv) (pool : s.n ≠ 0)
include hs pool

theorem State.Inv.readyCount_lt : s.readyCount < s.n := by
  have hin := hs.inCur_lt pool
  have hout := hs.outCur_lt pool
  rw [hs.readyCount_eq pool]
  split <;> omega

/-- The ring is full exactly when one slot, slot IN, is not ready (10_state.md R27). -/
theorem State.Inv.ringFull_iff_readyCount : s.ringFull = true ↔ s.readyCount = s.n - 1 := by
  have hin := hs.inCur_lt pool
  have hout := hs.outCur_lt pool
  have next := cursor_next hin
  rw [State.ringFull, beq_iff_eq, hs.readyCount_eq pool]
  split at next <;> split <;> omega

/-- While a slot is attached the ring is not full, so one place is left for it (42_capture.md R158). -/
theorem State.Inv.readyCount_add_attached_le :
    s.readyCount + (if s.attached = none then 0 else 1) ≤ s.n - 1 := by
  have below := hs.readyCount_lt pool
  cases attached : s.attached with
  | none =>
    rw [if_pos rfl]
    omega
  | some i =>
    have notFull := (ringFull_eq_false_iff s).2 (hs.attached i attached).2
    have notLast : s.readyCount ≠ s.n - 1 := fun last => by
      simp [(hs.ringFull_iff_readyCount pool).2 last] at notFull
    rw [if_neg (Option.some_ne_none i)]
    omega

end

theorem ringTryFree_eq_none_iff (s : State) : ringTryFree s = none ↔ s.ringFull = true := by
  simp [ringTryFree]

/-- Settles O15: an attached slot needs a ring that is not full, and full means N - 1 ready. -/
theorem ringCapacityIsBounded : Obligations.RingCapacityIsBounded := fun s hs pool =>
  ⟨hs.readyCount_add_attached_le pool,
    (ringTryFree_eq_none_iff s).trans (hs.ringFull_iff_readyCount pool)⟩

/-! ### ALLOC and FREE -/

theorem Session.ne_disabled_of_eq_streaming {x : Session} (streaming : x = .streaming) : x ≠ .disabled :=
  fun disabled => by cases disabled.symm.trans streaming

/-- The state ALLOC leaves: the pool of fresh slots, both cursors 0 (41_ring.md R130). -/
def State.allocated (s : State) (count : Half) : State :=
  { s with
    slots := (s.params.pa.toList.take (clampCount count)).map s.freshSlot
    inCur := 0
    outCur := 0 }

theorem execAlloc_of_guard {s : State} (count : Half)
    (guard : s.session ≠ .disabled ∨ s.n ≠ 0 ∨ s.modeValid = false) :
    execAlloc count s = .next (s.answering .rejected) := by
  rw [execAlloc, if_pos guard, reject_eq]

section
variable {s : State} (disabled : s.session = .disabled) (noPool : s.n = 0) (mode : s.modeValid = true)
include disabled noPool mode

theorem execAlloc_of_allocFails (count : Half) (fails : s.draws.allocOk = false) :
    execAlloc count s = .next (s.answering .fatal) := by
  rw [execAlloc, if_neg (by simp [disabled, noPool, mode]), if_pos fails, respond_eq]

theorem execAlloc_of_allocOk (count : Half) (allocOk : s.draws.allocOk = true) :
    execAlloc count s =
      .next ((s.allocated count).answering .ok (BitVec.ofNat 32 (clampCount count))) := by
  rw [execAlloc, if_neg (by simp [disabled, noPool, mode]), if_neg (by simp [allocOk]), respond_eq]
  rfl

end

/-- Slot k of a new pool is fresh, at the address PA gives it. -/
theorem State.allocated_slot (s : State) {count : Half} {k : Nat} (hk : k < 20)
    (inPool : k < clampCount count) :
    (s.allocated count).slots[k]? = some (s.freshSlot s.params.pa[k]) := by
  simp [State.allocated, inPool, hk]

/-- Settles O26: the pool is the fresh one, and the size of a buffer fits its register. -/
theorem allocCreatesThePool : Obligations.AllocCreatesThePool := by
  intro s count disabled noPool mode allocOk fits
  refine ⟨(s.allocated count).slots, execAlloc_of_allocOk disabled noPool mode count allocOk,
    freshPool_length s count, fun k hk inPool => ?_⟩
  rw [s.allocated_slot hk inPool, State.freshSlot, State.modeSize, word32_of_lt fits]
  rfl

/-- Settles O27: the guard, then the draw. -/
theorem allocFailuresChangeNothing : Obligations.AllocFailuresChangeNothing := by
  refine fun s count => ⟨fun guard => execAlloc_of_guard count ?_, fun disabled noPool mode fails =>
    execAlloc_of_allocFails disabled noPool mode count fails⟩
  exact guard.imp_left Session.ne_disabled_of_eq_streaming

/-- Settles O28: the two guards of FREE in their order. -/
theorem freeTearsThePoolDown : Obligations.FreeTearsThePoolDown := by
  refine fun s => ⟨fun noPool => ?_, fun pool streaming => ?_, fun pool disabled => ?_⟩ <;>
    rw [exec, execFree]
  · rw [if_pos noPool, refuse_eq]
  · rw [if_neg pool, if_pos (Session.ne_disabled_of_eq_streaming streaming), reject_eq]
  · rw [if_neg pool, if_neg (not_not.2 disabled), respond_eq]

/-! ### TAF and TAR: the two peeks -/

/-- The cursors of the invariant fit a result word. -/
theorem State.Inv.word32_of_cursor {s : State} (hs : s.Inv) {i : Nat} (hi : i < s.n) :
    word32 i = BitVec.ofNat 32 i := by
  refine word32_of_lt ?_
  rcases hs.ring with ⟨noPool, -⟩ | ⟨-, twenty, -⟩ <;> omega

theorem execTaf_of_guard {s : State} (guard : s.n = 0 ∨ s.session = .streaming) :
    execTaf s = .next (s.answering .illegal) := by
  rw [execTaf, if_pos guard, refuse_eq]

section
variable {s : State} (pool : s.n ≠ 0) (disabled : s.session = .disabled)
include pool disabled

theorem execTaf_of_full (full : (s.inCur + 1) % s.n = s.outCur) :
    execTaf s = .next (s.answering .none) := by
  simp [execTaf, pool, disabled, ringTryFree, State.ringFull, full]

theorem execTaf_of_not_full (hs : s.Inv) (notFull : (s.inCur + 1) % s.n ≠ s.outCur) :
    execTaf s = .next (s.answering .ok (BitVec.ofNat 32 s.inCur)) := by
  simp [execTaf, pool, disabled, ringTryFree, State.ringFull, notFull,
    hs.word32_of_cursor (hs.inCur_lt pool)]

end

/-- Settles O29: the guard, then ring_try_free, whose answer fits a result word. -/
theorem tafPeeksTheNextFreeSlot : Obligations.TafPeeksTheNextFreeSlot := fun _ hs =>
  ⟨execTaf_of_guard, execTaf_of_full, fun pool disabled => execTaf_of_not_full pool disabled hs⟩

theorem execTar_of_noPool {s : State} (noPool : s.n = 0) : execTar s = .next (s.answering .illegal) := by
  rw [execTar, if_pos noPool, refuse_eq]

theorem execTar_of_empty {s : State} (pool : s.n ≠ 0) (empty : s.inCur = s.outCur) :
    execTar s = .next (s.answering .none) := by
  simp [execTar, pool, State.ringEmpty, empty]

theorem execTar_of_head {s : State} (hs : s.Inv) {d : Slot} (notEmpty : s.inCur ≠ s.outCur)
    (head : s.slots[s.outCur]? = some d) :
    execTar s = .next (s.answering .ok (BitVec.ofNat 32 s.outCur) d.seq d.ts (d.fmt.setWidth 32)) := by
  have pool := State.pool_of_slot head
  simp [execTar, pool, State.ringEmpty, notEmpty, head, hs.word32_of_cursor (hs.outCur_lt pool)]

/-- Settles O31: no pool, an empty ring, and the head. -/
theorem tarPeeksTheHead : Obligations.TarPeeksTheHead := fun _ hs =>
  ⟨execTar_of_noPool, execTar_of_empty, fun _ => execTar_of_head hs⟩

/-! ### PUB and REL: the two moves -/

/-- A slot written and IN moved past it, as one update of the state. -/
theorem State.setSlot_publishNext (s : State) (i : Nat) (d : Slot) (q : Word) :
    (s.setSlot i d).publishNext q =
      { s with
        slots := s.slots.set i d
        inCur := (s.inCur + 1) % s.n
        readyLog := if s.cbEn then s.readyLog ++ [q] else s.readyLog } := by
  rw [State.publishNext, State.setSlot_n]
  rfl

/-- PUB of slot IN writes its sequence number and moves IN past it (41_ring.md R133, R139). -/
theorem execPub_of_slotIn {s : State} {slot : Byte} {d : Slot} (disabled : s.session = .disabled)
    (cursor : slot.toNat = s.inCur) (found : s.slots[slot.toNat]? = some d)
    (notFull : (s.inCur + 1) % s.n ≠ s.outCur) (q : Word) :
    execPub slot q s =
      .next (((s.setSlot s.inCur { d with seq := q }).publishNext q).answering .ok q) := by
  rw [cursor] at found
  simp [execPub, withSlot, ringPublish, found, disabled, cursor, (ringFull_eq_false_iff s).2 notFull]

/-- Whatever slot is named, PUB is refused while Streaming, off slot IN or on a full ring. -/
theorem execPub_of_guard {s : State} {slot : Byte} (q : Word)
    (guard : s.session = .streaming ∨ slot.toNat ≠ s.inCur ∨ s.ringFull = true) :
    execPub slot q s = .next (s.answering .illegal) := by
  refine withSlot_rule (P := (· = .next (s.answering .illegal))) (refuse_eq s) fun d _ => ?_
  split
  · exact refuse_eq s
  next notStreaming => rw [if_pos (guard.resolve_left notStreaming), refuse_eq]

/-- A selector of no existing slot is refused (30_encoding.md R102). -/
theorem withSlot_of_beyond {s : State} {slot : Byte} (beyond : s.n ≤ slot.toNat) (k : Slot → Out) :
    withSlot s slot k = .next (s.answering .illegal) := by
  rw [withSlot, List.getElem?_eq_none beyond, refuse_eq]

/-- Settles O30: the selector, then PUB's own guard, then the publish. -/
theorem pubPublishesSlotIn : Obligations.PubPublishesSlotIn := by
  refine fun s slot q => ⟨fun d disabled cursor found notFull =>
    (execPub_of_slotIn disabled cursor found notFull q).trans (by rw [State.setSlot_publishNext]),
    fun guard => ?_⟩
  rcases guard with beyond | streaming | other | full
  · exact withSlot_of_beyond beyond _
  · exact execPub_of_guard q (.inl streaming)
  · exact execPub_of_guard q (.inr (.inl other))
  · exact execPub_of_guard q (.inr (.inr (beq_iff_eq.2 full)))

@[simp] theorem State.released_inCur (s : State) : s.released.inCur = s.inCur := rfl
@[simp] theorem State.released_outCur (s : State) : s.released.outCur = (s.outCur + 1) % s.n := rfl
@[simp] theorem State.released_n (s : State) : s.released.n = s.n := rfl

theorem execRel_of_guard {s : State} (guard : s.n = 0 ∨ s.inCur = s.outCur) :
    execRel s = .next (s.answering .illegal) := by
  by_cases noPool : s.n = 0
  · rw [execRel, if_pos noPool, refuse_eq]
  · have empty : s.ringEmpty = true := beq_iff_eq.2 (guard.resolve_left noPool)
    rw [execRel, if_neg noPool, if_pos empty, refuse_eq]

theorem execRel_of_head {s : State} (pool : s.n ≠ 0) (notEmpty : s.inCur ≠ s.outCur) :
    execRel s = .next (s.released.answering .ok) := by
  simp [execRel, pool, State.ringEmpty, notEmpty, State.released]

/-- Settles O32: the guard, then the move of OUT. -/
theorem relReleasesTheHead : Obligations.RelReleasesTheHead := fun _ =>
  ⟨execRel_of_guard, execRel_of_head⟩

/-! ### DESC and GAINS -/

theorem withSlot_of_found {s : State} {slot : Byte} {d : Slot} (found : s.slots[slot.toNat]? = some d)
    (k : Slot → Out) : withSlot s slot k = k d := by
  rw [withSlot, found]

/-- Settles O33: both operations are one read of the slot the selector names. -/
theorem descAndGainsReadASlot : Obligations.DescAndGainsReadASlot := fun _ _ =>
  ⟨fun _ found => ⟨withSlot_of_found found _, withSlot_of_found found _⟩,
    fun beyond => ⟨withSlot_of_beyond beyond _, withSlot_of_beyond beyond _⟩⟩

end Sys2Proof.Machine
end

section
/-! PROOFS. The ring is first in, first out: the head of the ready queue, what each change and each step does to the
queue, and the ring scenario of three slots (41_ring.md R140, R142). -/

namespace Sys2Proof.Machine

/-! ### The head of the queue -/

theorem State.readyQueue_of_empty {s : State} (empty : s.inCur = s.outCur) : s.readyQueue = [] := by
  simp [State.readyQueue, State.readyCount, empty]

/-- Without a pool the ring is empty. -/
theorem State.Inv.empty_of_noPool {s : State} (hs : s.Inv) (noPool : s.n = 0) : s.inCur = s.outCur := by
  rcases hs.ring with ⟨-, hin, hout⟩ | ⟨three, -⟩ <;> omega

theorem State.Inv.pool_of_notEmpty {s : State} (hs : s.Inv) (notEmpty : s.inCur ≠ s.outCur) : s.n ≠ 0 :=
  fun noPool => notEmpty (hs.empty_of_noPool noPool)

/-- The queue of a ring that is not empty is slot OUT followed by the queue a release leaves (41_ring.md R135, R140). -/
theorem State.Inv.readyQueue_eq_cons {s : State} (hs : s.Inv) (notEmpty : s.inCur ≠ s.outCur) {d : Slot}
    (head : s.slots[s.outCur]? = some d) :
    s.readyQueue = (s.outCur, d.seq) :: s.released.readyQueue := by
  have pool := State.pool_of_slot head
  have first : s.outCur % s.n = s.outCur := Nat.mod_eq_of_lt (hs.outCur_lt pool)
  have behind (k : Nat) : (s.outCur + (k + 1)) % s.n = (s.released.outCur + k) % s.released.n := by
    rw [State.released_outCur, State.released_n, Nat.mod_add_mod, Nat.add_assoc, Nat.add_comm 1 k]
  rw [State.readyQueue, hs.readyCount_released pool notEmpty, List.range_succ_eq_map, List.filterMap_cons,
    List.filterMap_map, Nat.add_zero, first, head]
  refine congrArg (List.cons _) (List.filterMap_congr fun k _ => ?_)
  rw [Function.comp_apply, Nat.succ_eq_add_one, behind]
  rfl

/-- TAR answers the head of the queue (41_ring.md R134, R140). -/
theorem execTar_of_readyQueue {s : State} (hs : s.Inv) {i : Nat} {q : Word} {rest : List (Nat × Word)}
    (queue : s.readyQueue = (i, q) :: rest) :
    ∃ ts fmt, execTar s = .next (s.answering .ok (BitVec.ofNat 32 i) q ts fmt) := by
  have notEmpty : s.inCur ≠ s.outCur := fun empty => by
    simp [State.readyQueue_of_empty empty] at queue
  obtain ⟨d, head⟩ := hs.slot_outCur (hs.pool_of_notEmpty notEmpty)
  rw [hs.readyQueue_eq_cons notEmpty head] at queue
  obtain ⟨⟨rfl, rfl⟩, -⟩ : (s.outCur = i ∧ d.seq = q) ∧ _ := by simpa using queue
  exact ⟨_, _, execTar_of_head hs notEmpty head⟩

/-! ### What a step does to the queue -/

/-- What a change of operation i, other than ISR, does to the ready queue (41_ring.md R140). -/
theorem Change.readyQueue {i : Instr} {s t : State} (change : Change i s t) (hs : s.Inv)
    (notIsr : i ≠ .isr) :
    t.readyQueue = s.readyQueue ∨
      (∃ slot q, i = .pub slot q ∧ slot.toNat = s.inCur ∧ t.readyQueue = s.readyQueue ++ [(s.inCur, q)]) ∨
      (i = .rel ∧ ∃ e, s.readyQueue = e :: t.readyQueue) ∨
      (i = .free ∧ t.readyQueue = []) := by
  cases change with
  | unchanged | mode | start | stop | conv888 | conv565 | ksetup | kset | ksetp => exact .inl rfl
  | alloc _ noPool =>
    exact .inl ((State.readyQueue_of_empty rfl).trans
      (State.readyQueue_of_empty (hs.empty_of_noPool noPool)).symm)
  | free => exact .inr (.inr (.inr ⟨rfl, State.readyQueue_of_empty rfl⟩))
  | pub _ found cursor notFull =>
    refine .inr (.inl ⟨_, _, rfl, cursor, ?_⟩)
    rw [cursor]
    exact hs.readyQueue_publish (State.pool_of_slot found) notFull _ _
  | rel pool notEmpty =>
    obtain ⟨d, head⟩ := hs.slot_outCur pool
    exact .inr (.inr (.inl ⟨rfl, _, hs.readyQueue_eq_cons notEmpty head⟩))
  | isrReturns | isrServices => exact absurd rfl notIsr
  | wbal found => exact .inl (readyQueue_congr rfl rfl (State.setSlot_map_slots Slot.seq found rfl))

/-- ISR leaves the queue, or appends slot IN with SEQ to it. -/
theorem boundary_readyQueue {s s' : State} (hs : s.Inv) (serviced : s.ServicesABoundary)
    (h : step s = .next s') :
    s'.readyQueue = s.readyQueue ∨ s'.readyQueue = s.readyQueue ++ [(s.inCur, s.seq)] := by
  cases attached : s.attached with
  | none => exact .inl (boundary_skips serviced attached h).1
  | some i =>
    obtain ⟨rfl, -⟩ := hs.attached i attached
    exact .inr (boundary_publishes hs serviced attached h).1

/-- A step leaves the queue, appends slot IN, takes the head off, or empties the queue (41_ring.md R140). -/
theorem step_readyQueue {s s' : State} (hs : s.Inv) (h : step s = .next s') :
    s'.readyQueue = s.readyQueue ∨
      ((∃ slot q, s.Runs (.pub slot q) ∧ slot.toNat = s.inCur ∧
        s'.readyQueue = s.readyQueue ++ [(s.inCur, q)]) ∨
       (s.Runs .isr ∧ s'.readyQueue = s.readyQueue ++ [(s.inCur, s.seq)])) ∨
      (s.Runs .rel ∧ ∃ e, s.readyQueue = e :: s'.readyQueue) ∨
      (s.Runs .free ∧ s'.readyQueue = []) := by
  by_cases serviced : s.ServicesABoundary
  · rcases boundary_readyQueue hs serviced h with same | appended
    · exact .inl same
    · exact .inr (.inl (.inr ⟨serviced.1, appended⟩))
  · rcases step_of_not_servicesABoundary serviced h with same | ⟨i, rest, t, r, runs, notIsr, change, rfl⟩
    · exact .inl same.readyQueue
    · rcases change.readyQueue (hs.withInputs rest) notIsr with
        same | ⟨slot, q, rfl, cursor, appended⟩ | ⟨rfl, taken⟩ | ⟨rfl, emptied⟩
      · exact .inl same
      · exact .inr (.inl (.inl ⟨slot, q, runs, cursor, appended⟩))
      · exact .inr (.inr (.inl ⟨runs, taken⟩))
      · exact .inr (.inr (.inr ⟨runs, emptied⟩))

/-- REL takes the head off; the empty queue it leaves empty. -/
theorem execRel_readyQueue {s s' : State} (hs : s.Inv) (h : execRel s = .next s') :
    s'.readyQueue = s.readyQueue.tail := by
  by_cases empty : s.inCur = s.outCur
  · cases (execRel_of_guard (.inr empty)).symm.trans h
    rw [State.readyQueue_of_empty empty]
    exact State.readyQueue_of_empty empty
  · have pool := hs.pool_of_notEmpty empty
    obtain ⟨d, head⟩ := hs.slot_outCur pool
    cases (execRel_of_head pool empty).symm.trans h
    rw [hs.readyQueue_eq_cons empty head]
    rfl

theorem step_rel_readyQueue {s s' : State} (hs : s.Inv) (runs : s.Runs .rel) (h : step s = .next s') :
    s'.readyQueue = s.readyQueue.tail := by
  obtain ⟨rest, hstep⟩ := runs.step_eq
  exact execRel_readyQueue (s := { s with inputs := rest }) (hs.withInputs rest) (hstep.symm.trans h)

/-! ### The scenario of three slots -/

theorem exec_inv {i : Instr} {s s' : State} (hs : s.Inv) (h : exec i s = .next s') : s'.Inv := by
  obtain ⟨t, r, change, rfl⟩ := exec_change i s s' h
  exact (change.inv hs).withResp (some r)

/-- A publish by the application: the cursors and the queue it leaves (41_ring.md R133, R139). -/
theorem exec_pub_ring {s : State} (hs : s.Inv) (disabled : s.session = .disabled) (pool : s.n ≠ 0)
    {slot : Byte} (cursor : slot.toNat = s.inCur) (notFull : (s.inCur + 1) % s.n ≠ s.outCur) (q : Word) :
    ∃ t, exec (.pub slot q) s = .next t ∧ t.Inv ∧ t.session = .disabled ∧ t.n = s.n ∧
      t.inCur = (s.inCur + 1) % s.n ∧ t.outCur = s.outCur ∧
      t.readyQueue = s.readyQueue ++ [(s.inCur, q)] := by
  obtain ⟨d, found⟩ := hs.slot_inCur pool
  have runs := execPub_of_slotIn disabled cursor (cursor ▸ found) notFull q
  exact ⟨_, runs, exec_inv (i := .pub slot q) hs runs, disabled, by simp, by simp, rfl,
    hs.readyQueue_publish pool ((ringFull_eq_false_iff s).2 notFull) _ q⟩

/-- The source's ring scenario (41_ring.md R142): two publishes fill an empty ring of three slots, a release frees one
slot, and the second publish is then the head. -/
theorem ringScenario {s : State} (hs : s.Inv) (disabled : s.session = .disabled) (three : s.n = 3)
    (empty : s.inCur = s.outCur) {a b : Byte} (first : a.toNat = s.inCur)
    (second : b.toNat = (s.inCur + 1) % 3) (q r : Word) :
    ∃ s1 s2 s3 s4 s5, exec (.pub a q) s = .next s1 ∧ exec (.pub b r) s1 = .next s2 ∧
      exec .taf s2 = .next s3 ∧ exec .rel s3 = .next s4 ∧ exec .taf s4 = .next s5 ∧
      s3.resp = some ⟨.none, 0, 0, 0, 0⟩ ∧
      s5.resp = some ⟨.ok, BitVec.ofNat 32 ((s.inCur + 2) % 3), 0, 0, 0⟩ ∧
      ∃ s6, exec .tar s4 = .next s6 ∧
        ∃ x y, s6.resp = some ⟨.ok, BitVec.ofNat 32 b.toNat, r, x, y⟩ := by
  have hin : s.inCur < 3 := three ▸ hs.inCur_lt (by omega)
  obtain ⟨s1, pub1, inv1, disabled1, n1, in1, out1, queue1⟩ :=
    exec_pub_ring hs disabled (by omega) first (by rw [three]; omega) q
  rw [three] at n1 in1
  obtain ⟨s2, pub2, inv2, disabled2, n2, next2, out2, queue2⟩ :=
    exec_pub_ring inv1 disabled1 (by omega) (second.trans in1.symm) (by rw [n1]; omega) r
  have in2 : s2.inCur = (s.inCur + 2) % 3 := by rw [next2, n1, in1]; omega
  have pool2 : s2.n ≠ 0 := by omega
  have full2 : (s2.inCur + 1) % s2.n = s2.outCur := by rw [n2, n1]; omega
  have notEmpty2 : s2.inCur ≠ s2.outCur := by omega
  have notFull4 : (s2.inCur + 1) % s2.n ≠ (s2.outCur + 1) % s2.n := by rw [n2, n1]; omega
  have taf2 := execTaf_of_full pool2 disabled2 full2
  have rel3 := execRel_of_head (s := s2.answering .none) pool2 notEmpty2
  have inv3 := exec_inv (i := .taf) inv2 taf2
  have inv4 := exec_inv (i := .rel) inv3 rel3
  have taf4 := execTaf_of_not_full (s := (s2.answering .none).released.answering .ok) pool2 disabled2
    inv4 notFull4
  have queue4 : ((s2.answering .none).released.answering .ok).readyQueue = [(b.toNat, r)] :=
    calc _ = s2.readyQueue.tail := execRel_readyQueue (s := s2.answering .none) inv3 rel3
      _ = [(s1.inCur, r)] := by rw [queue2, queue1, State.readyQueue_of_empty empty]; rfl
      _ = [(b.toNat, r)] := by rw [second, in1]
  obtain ⟨x, y, tar4⟩ := execTar_of_readyQueue inv4 queue4
  exact ⟨s1, s2, _, _, _, pub1, pub2, taf2, rel3, taf4, rfl, by simp [in2], _, tar4, x, y, rfl⟩

/-- Settles O34: a step on the queue, TAR's answer of its head, and the scenario, each a lemma above. -/
theorem ringIsAFifoAndRunsTheScenario : Obligations.RingIsAFifoAndRunsTheScenario :=
  ⟨fun _ _ hs h => ⟨step_readyQueue hs h, fun runs => step_rel_readyQueue hs runs h⟩,
    fun _ _ _ _ hs queue => execTar_of_readyQueue hs queue,
    fun _ _ _ q r hs disabled three empty first second =>
      ringScenario hs disabled three empty first second q r⟩

end Sys2Proof.Machine
end

section
/-! PROOFS. The capture engine: one equation per branch of MODE, START and STOP, and of the interrupt handler and its
two steps (42_capture.md R150 to R161). -/

namespace Sys2Proof.Machine

/-! ### MODE -/

/-- What MODE checks before it records a mode (42_capture.md R150). -/
def State.AcceptsMode (s : State) (fmt : Half) (width height bpl : Word) : Prop :=
  s.session = .disabled ∧ s.n = 0 ∧ fmtAccepted fmt = true ∧
    geometryAccepted s.params ((bytesPerSample fmt).getD 0) width.toNat height.toNat bpl.toNat = true

/-- An accepted format has a sample layout, so the geometry is checked for its bytes per sample. -/
theorem State.acceptsMode_iff (s : State) (fmt : Half) (width height bpl : Word) :
    s.AcceptsMode fmt width height bpl ↔
      s.session = .disabled ∧ s.n = 0 ∧ LegalFormat fmt ∧ fmt.toNat < 2 ^ 13 ∧
        1 ≤ width.toNat ∧ width.toNat ≤ 65535 ∧ 1 ≤ height.toNat ∧ height.toNat ≤ 65535 ∧
        width.toNat * sampleBytes fmt ≤ bpl.toNat ∧ bpl.toNat % s.params.lineAlign = 0 ∧
        height.toNat * bpl.toNat < 2 ^ 32 := by
  rw [State.AcceptsMode, fmtAccepted_iff, geometryAccepted_iff]
  by_cases legal : LegalFormat fmt
  · rw [(bytesPerSample_eq_some_iff fmt _).2 ⟨legal, rfl⟩, Option.getD_some]
    simp only [and_assoc]
  · simp [legal]

theorem execMode_of_accepts {s : State} {fmt : Half} {width height bpl : Word}
    (accepts : s.AcceptsMode fmt width height bpl) :
    execMode fmt width height bpl s =
      .next (State.answering
        { s with
          modeW := width.setWidth 16
          modeH := height.setWidth 16
          modeBpl := bpl
          modeFmt := fmt
          modeValid := true } .ok (word32 (height.toNat * bpl.toNat))) := by
  obtain ⟨disabled, noPool, format, geometry⟩ := accepts
  simp [execMode, disabled, noPool, format, geometry]

theorem execMode_of_not_accepts {s : State} {fmt : Half} {width height bpl : Word}
    (rejects : ¬ s.AcceptsMode fmt width height bpl) :
    execMode fmt width height bpl s = .next (s.answering .rejected) := by
  unfold execMode
  split
  · exact reject_eq s
  next guard =>
    obtain ⟨disabled, noPool⟩ : s.session = .disabled ∧ s.n = 0 := by simpa using guard
    split
    · exact reject_eq s
    next format =>
      split
      · exact reject_eq s
      next geometry =>
        exact absurd
          ⟨disabled, noPool, Bool.of_not_eq_false format, Bool.of_not_eq_false geometry⟩ rejects

/-- Settles O35: MODE's checks are the conditions of R150, and an accepted buffer size fits its result word. -/
theorem modeRecordsAnAcceptedMode : Obligations.ModeRecordsAnAcceptedMode := by
  intro s fmt w h bpl accepted
  have accepts_iff : s.AcceptsMode fmt w h bpl ↔ accepted := s.acceptsMode_iff fmt w h bpl
  refine ⟨fun accept => ?_, fun reject => execMode_of_not_accepts (mt accepts_iff.1 reject)⟩
  have runs := execMode_of_accepts (accepts_iff.2 accept)
  obtain ⟨-, -, -, -, -, -, -, -, -, -, fits⟩ := accept
  rw [BitVec.ofNat_toNat, BitVec.ofNat_toNat, ← word32_of_lt fits]
  exact runs

/-! ### START and STOP -/

theorem execStart_of_guard {s : State} (callback : Bool)
    (guard : s.session = .streaming ∨ s.n = 0 ∨ s.modeValid = false) :
    execStart callback s = .next (s.answering .rejected) := by
  rw [execStart, if_pos guard, reject_eq]

section
variable {s : State} (disabled : s.session = .disabled) (pool : s.n ≠ 0) (mode : s.modeValid = true)
include disabled pool mode

theorem execStart_of_bringupFails (callback : Bool) (fails : s.draws.bringupOk = false) :
    execStart callback s = .next (s.answering .fatal) := by
  simp [execStart, disabled, pool, mode, fails]

theorem execStart_of_bringupOk (callback : Bool) (bringupOk : s.draws.bringupOk = true) :
    execStart callback s =
      .next (State.answering
        { s.setDmaScratch.clearEngine with cbEn := callback, armed := true, session := .streaming }
        .ok) := by
  simp [execStart, disabled, pool, mode, bringupOk]

end

/-- Settles O36: the guard, the draw, and the session on the scratch region, whose end is held where 32 bits hold it. -/
theorem startBeginsASession : Obligations.StartBeginsASession := fun _ cb =>
  ⟨execStart_of_guard cb,
    fun disabled pool mode fails => execStart_of_bringupFails disabled pool mode cb fails,
    fun disabled pool mode bringupOk =>
      ⟨_, word32_toNat_of_lt, execStart_of_bringupOk disabled pool mode cb bringupOk⟩⟩

/-- Settles O37: the guard, then the engine cleared. -/
theorem stopEndsTheSession : Obligations.StopEndsTheSession := by
  refine fun s => ⟨fun disabled => ?_, fun streaming => ?_⟩ <;> rw [exec, execStop]
  · rw [if_pos disabled, reject_eq]
  · rw [if_neg (Session.ne_disabled_of_eq_streaming streaming), respond_eq]
    rfl

/-! ### The two steps of the handler -/

/-- frame_end with a slot attached stamps it, publishes it and detaches it (42_capture.md R158). -/
theorem frameEnd_of_attached {s : State} {d : Slot} (attached : s.attached = some s.inCur)
    (found : s.slots[s.inCur]? = some d) (notFull : (s.inCur + 1) % s.n ≠ s.outCur) :
    frameEnd s = .ok
      ({ (s.setSlot s.inCur (s.stamped d)).publishNext s.seq with
          attached := none, seq := s.seq + 1#32 },
        flagBoundary ||| flagPublished) := by
  simp [frameEnd, attached, found, ringPublish, (ringFull_eq_false_iff s).2 notFull, State.stamped]

/-- frame_end with nothing attached skips the number (42_capture.md R158). -/
theorem frameEnd_of_unattached {s : State} (unattached : s.attached = none) :
    frameEnd s = .ok ({ s with seq := s.seq + 1#32 }, flagBoundary) := by
  rw [frameEnd, unattached]

/-- After frame_end nothing is attached. -/
theorem frameEnd_detaches {s t : State} {g : Word} (h : frameEnd s = .ok (t, g)) : t.attached = none := by
  rcases frameEnd_cases h with ⟨unattached, rfl, -⟩ | ⟨d, -, -, -, rfl, -⟩
  · exact unattached
  · rfl

/-- frame_start leaves an attached slot (42_capture.md R159). -/
theorem frameStart_of_attached {s : State} {i : Nat} (attached : s.attached = some i) :
    frameStart s = .ok (s, flagFrameStart) := by
  rw [frameStart, attached]

/-- frame_start on a full ring selects the scratch region (42_capture.md R159). -/
theorem frameStart_of_full {s : State} (unattached : s.attached = none)
    (full : (s.inCur + 1) % s.n = s.outCur) :
    frameStart s = .ok (s.setDmaScratch, flagFrameStart ||| flagScratch) := by
  simp [frameStart, unattached, ringTryFree, State.ringFull, full]

/-- frame_start attaches slot IN of a ring that is not full (42_capture.md R159). -/
theorem frameStart_of_not_full {s : State} {d : Slot} (unattached : s.attached = none)
    (found : s.slots[s.inCur]? = some d) (notFull : (s.inCur + 1) % s.n ≠ s.outCur) :
    frameStart s = .ok
      ({ (s.setSlot s.inCur { d with ts := s.draws.tick }).setDma d.pa d.size.toNat with
          attached := some s.inCur },
        flagFrameStart ||| flagAttached) := by
  simp [frameStart, unattached, found, ringTryFree, (ringFull_eq_false_iff s).2 notFull]

/-- A conditional step of the handler whose condition holds ends as its effect does, the flags added. -/
theorem isrStep_true_iff {f : State → Except Fault (State × Word)} {s t : State} {flags g : Word} :
    isrStep true f s flags = .ok (t, g) ↔ ∃ k, f s = .ok (t, k) ∧ g = flags ||| k := by
  refine ⟨fun h => ?_, fun ⟨k, hf, hg⟩ => by rw [isrStep, if_pos rfl, hf, hg]⟩
  rcases isrStep_cases h with ⟨never, -⟩ | ⟨k, -, hf, hg⟩
  · exact nomatch never
  · exact ⟨k, hf, hg⟩

/-- A conditional step of the handler whose condition fails is skipped. -/
theorem isrStep_false_iff {f : State → Except Fault (State × Word)} {s t : State} {flags g : Word} :
    isrStep false f s flags = .ok (t, g) ↔ t = s ∧ g = flags := by
  rw [isrStep, if_neg Bool.false_ne_true, Except.ok.injEq, Prod.mk.injEq, eq_comm (a := s),
    eq_comm (a := flags)]

/-! ### The handler -/

/-- s with no condition latched, as the write-back of what was read leaves it (42_capture.md R157). -/
def State.statusCleared (s : State) : State := { s with status0 := 0#32, status1 := 0#32 }

@[simp] theorem State.statusCleared_session (s : State) : s.statusCleared.session = s.session := rfl

theorem State.writeBackStatus_own (s : State) :
    s.writeBackStatus s.status0 s.status1 = s.statusCleared := by
  simp [State.writeBackStatus, State.statusCleared, writeOneToClear]

theorem genuine_iff (s0 : Word) :
    genuine s0 = true ↔ s0.getLsbD 0 = true ∨ s0.getLsbD 1 = true := Bool.or_eq_true_iff

theorem isBoundary_iff (s0 s1 : Word) :
    isBoundary s0 s1 = true ↔ s1.getLsbD 1 = true ∨ s0.getLsbD 1 = true := Bool.or_eq_true_iff

/-- ISR that is not to be serviced clears the status registers and answers no flag (42_capture.md R157). -/
theorem execIsr_of_returns {s : State} (returns : s.session = .disabled ∨ genuine s.status0 = false) :
    execIsr s = .next (s.statusCleared.answering .ok) := by
  have guard : s.session ≠ .streaming ∨ genuine s.status0 = false :=
    returns.imp_left fun disabled streaming => Session.ne_disabled_of_eq_streaming streaming disabled
  rw [execIsr, State.writeBackStatus_own, State.statusCleared_session, if_pos guard, respond_eq]

section
variable {s t : State} (streaming : s.session = .streaming) (serves : genuine s.status0 = true)
include streaming serves

/-- A serviced ISR is its boundary step followed by its frame-start step (42_capture.md R156). -/
theorem execIsr_serviced_iff :
    execIsr s = .next t ↔ ∃ u v flags flags',
      isrStep (isBoundary s.status0 s.status1) frameEnd s.statusCleared flagServiced = .ok (u, flags) ∧
      isrStep (isFrameStart s.status1) frameStart u flags = .ok (v, flags') ∧
      t = v.answering .ok flags' := by
  have guard : ¬ (s.session ≠ .streaming ∨ genuine s.status0 = false) :=
    not_or.2 ⟨not_not.2 streaming, by simp [serves]⟩
  rw [execIsr, State.writeBackStatus_own, State.statusCleared_session, if_neg guard]
  constructor
  · intro h
    split at h
    · cases h
    next u flags boundary =>
      split at h
      · cases h
      next v flags' frame =>
        cases h
        exact ⟨u, v, flags, flags', boundary, frame, rfl⟩
  · rintro ⟨u, v, flags, flags', boundary, frame, rfl⟩
    simp only [boundary, frame, respond_eq]

/-- A serviced ISR on a boundary alone is frame_end. -/
theorem execIsr_boundary_iff (boundary : isBoundary s.status0 s.status1 = true)
    (noStart : isFrameStart s.status1 = false) :
    execIsr s = .next t ↔ ∃ u g, frameEnd s.statusCleared = .ok (u, g) ∧
      t = u.answering .ok (flagServiced ||| g) := by
  simp [execIsr_serviced_iff streaming serves, boundary, noStart, isrStep_true_iff, isrStep_false_iff]

/-- A serviced ISR on a frame start alone is frame_start. -/
theorem execIsr_frameStart_iff (noBoundary : isBoundary s.status0 s.status1 = false)
    (starts : isFrameStart s.status1 = true) :
    execIsr s = .next t ↔ ∃ u g, frameStart s.statusCleared = .ok (u, g) ∧
      t = u.answering .ok (flagServiced ||| g) := by
  simp [execIsr_serviced_iff streaming serves, noBoundary, starts, isrStep_true_iff, isrStep_false_iff]

/-- A serviced ISR on both is frame_end, then frame_start. -/
theorem execIsr_both_iff (boundary : isBoundary s.status0 s.status1 = true)
    (starts : isFrameStart s.status1 = true) :
    execIsr s = .next t ↔ ∃ u v g k, frameEnd s.statusCleared = .ok (u, g) ∧ frameStart u = .ok (v, k) ∧
      t = v.answering .ok (flagServiced ||| g ||| k) := by
  simp [execIsr_serviced_iff streaming serves, boundary, starts, isrStep_true_iff]

/-- A serviced ISR on neither does nothing more. -/
theorem execIsr_of_neither (noBoundary : isBoundary s.status0 s.status1 = false)
    (noStart : isFrameStart s.status1 = false) :
    execIsr s = .next (s.statusCleared.answering .ok flagServiced) := by
  simp [execIsr_serviced_iff streaming serves, noBoundary, noStart, isrStep_false_iff]

end

/-- Settles O39: the two returns of the handler, and a serviced interrupt that is neither boundary nor frame start. -/
theorem isrSpuriousOrIdle : Obligations.IsrSpuriousOrIdle := by
  refine fun s => ⟨fun returns => execIsr_of_returns ?_, fun streaming rxa noPkt noFs noFe => ?_⟩
  · exact returns.imp_right fun ⟨noRxa, noPkt⟩ => Bool.or_eq_false_iff.2 ⟨noRxa, noPkt⟩
  · exact execIsr_of_neither streaming ((genuine_iff _).2 (.inl rxa))
      (Bool.or_eq_false_iff.2 ⟨noFe, noPkt⟩) noFs

/-- Settles O40: the handler's boundary step on each case of frame_end. -/
theorem isrEndsAFrame : Obligations.IsrEndsAFrame := by
  intro s streaming serves boundary noFs
  have ends {t : State} := execIsr_boundary_iff (t := t) streaming ((genuine_iff _).2 serves)
    ((isBoundary_iff _ _).2 boundary) noFs
  refine ⟨fun unattached => ends.2 ⟨_, _, frameEnd_of_unattached unattached, rfl⟩,
    fun d attached found notFull => ends.2 ⟨_, _, frameEnd_of_attached attached found notFull, ?_⟩⟩
  rw [State.setSlot_publishNext]
  rfl

/-- Settles O41: the handler's frame-start step on each case of frame_start. -/
theorem isrStartsAFrame : Obligations.IsrStartsAFrame := by
  intro s streaming rxa noPkt noFe fs
  have starts {t : State} := execIsr_frameStart_iff (t := t) streaming ((genuine_iff _).2 (.inl rxa))
    (Bool.or_eq_false_iff.2 ⟨noFe, noPkt⟩) fs
  exact ⟨fun i attached => starts.2 ⟨_, _, frameStart_of_attached attached, rfl⟩,
    fun d unattached found notFull =>
      ⟨_, word32_toNat_of_lt, starts.2 ⟨_, _, frameStart_of_not_full unattached found notFull, rfl⟩⟩,
    fun unattached full =>
      ⟨_, word32_toNat_of_lt, starts.2 ⟨_, _, frameStart_of_full unattached full, rfl⟩⟩⟩

/-! ### Both conditions in one ISR -/

/-- frame_end writes no status register. -/
theorem frameEnd_statusCleared {s t : State} {g : Word} (h : frameEnd s.statusCleared = .ok (t, g)) :
    t.statusCleared = t := by
  rcases frameEnd_cases h with ⟨-, rfl, -⟩ | ⟨d, -, -, -, rfl, -⟩ <;> rfl

/-- frame_start neither reads nor writes the response. -/
theorem frameStart_withResp {s t : State} {r : Option Response} {g : Word}
    (h : frameStart (s.withResp r) = .ok (t, g)) : frameStart s = .ok (t.withResp s.resp, g) := by
  rcases frameStart_cases h with ⟨⟨i, attached⟩, rfl, rfl⟩ | ⟨unattached, full, rfl, rfl⟩ |
    ⟨d, unattached, notFull, found, rfl, rfl⟩
  · exact frameStart_of_attached attached
  · exact frameStart_of_full unattached (beq_iff_eq.1 full)
  · exact frameStart_of_not_full unattached found ((ringFull_eq_false_iff s).1 notFull)

/-- Settles O42: frame_end runs on the same state in both orders, and frame_start sees it but for the response. -/
theorem isrOfBothIsTwoIsrs : Obligations.IsrOfBothIsTwoIsrs := by
  intro s t u streaming serves boundary fs first second
  have serves := (genuine_iff _).2 serves
  have feKept : (s.status1 &&& ~~~1#32).getLsbD 1 = s.status1.getLsbD 1 := by simp
  have fsGone : (s.status1 &&& ~~~1#32).getLsbD 0 = false := by simp
  have rxaServes : genuine 1#32 = true := by decide
  have fsNoBoundary : isBoundary 1#32 1#32 = false := by decide
  have fsStarts : isFrameStart 1#32 = true := by decide
  obtain ⟨ended, g, ends, rfl⟩ := (execIsr_boundary_iff (s := { s with status1 := s.status1 &&& ~~~1#32 })
    streaming serves ((isBoundary_iff _ _).2 (feKept ▸ boundary)) fsGone).1 first
  have streams : ended.session = .streaming := (frameEnd_session ends).trans streaming
  obtain ⟨started, k, starts, rfl⟩ := (execIsr_frameStart_iff (s :=
    { ended.answering .ok (flagServiced ||| g) with status0 := 1#32, status1 := 1#32 })
    streams rxaServes fsNoBoundary fsStarts).1 second
  have starts : frameStart ended = .ok (started.withResp ended.resp, k) := by
    refine frameStart_withResp (r := some ⟨.ok, flagServiced ||| g, 0, 0, 0⟩) ?_
    rw [← frameEnd_statusCleared ends]
    exact starts
  exact ⟨_, (execIsr_both_iff streaming serves ((isBoundary_iff _ _).2 boundary) fs).2
    ⟨ended, _, g, k, ends, starts, rfl⟩, rfl⟩

/-! ### The flags ISR answers -/

/-- A next state of ISR answers OK with no flag, or with the flags of a serviced interrupt. -/
theorem execIsr_answer {s t : State} (h : execIsr s = .next t) :
    t = s.statusCleared.answering .ok ∨ ∃ u v flags flags',
      isrStep (isBoundary s.status0 s.status1) frameEnd s.statusCleared flagServiced = .ok (u, flags) ∧
      isrStep (isFrameStart s.status1) frameStart u flags = .ok (v, flags') ∧
      t = v.answering .ok flags' := by
  by_cases serviced : s.session = .streaming ∧ genuine s.status0 = true
  · exact .inr ((execIsr_serviced_iff serviced.1 serviced.2).1 h)
  · have returns : s.session = .disabled ∨ genuine s.status0 = false :=
      (not_and_or.1 serviced).imp Session.disabled_of_ne_streaming Bool.eq_false_of_not_eq_true
    exact .inl (Host.Outcome.next.inj (h.symm.trans (execIsr_of_returns returns)))

/-- The flags after the boundary step: serviced alone, or a boundary that leaves nothing attached. -/
theorem frameEnd_step_flags {c : Bool} {s u : State} {flags : Word}
    (h : isrStep c frameEnd s flagServiced = .ok (u, flags)) :
    flags = 0x01#32 ∨ (u.attached = none ∧ (flags = 0x03#32 ∨ flags = 0x07#32)) := by
  rcases isrStep_cases h with ⟨-, -, rfl⟩ | ⟨g, -, ends, rfl⟩
  · exact .inl rfl
  · refine .inr ⟨frameEnd_detaches ends, ?_⟩
    rcases frameEnd_cases ends with ⟨-, -, rfl⟩ | ⟨d, -, -, -, -, rfl⟩
    · exact .inl rfl
    · exact .inr rfl

/-- The flags the frame-start step adds: none, its own where a slot was attached, or its own with one of the two
selections. -/
theorem frameStart_step_flags {c : Bool} {u v : State} {flags flags' : Word}
    (h : isrStep c frameStart u flags = .ok (v, flags')) :
    flags' = flags ∨ (u.attached ≠ none ∧ flags' = flags ||| 0x08#32) ∨
      flags' = flags ||| 0x28#32 ∨ flags' = flags ||| 0x18#32 := by
  rcases isrStep_cases h with ⟨-, -, rfl⟩ | ⟨k, -, starts, rfl⟩
  · exact .inl rfl
  · rcases frameStart_cases starts with ⟨⟨i, attached⟩, -, rfl⟩ | ⟨-, -, -, rfl⟩ | ⟨d, -, -, -, -, rfl⟩
    · exact .inr (.inl ⟨attached ▸ Option.some_ne_none i, rfl⟩)
    · exact .inr (.inr (.inl rfl))
    · exact .inr (.inr (.inr rfl))

/-- Settles O43: the flags of the two steps combined; a frame start after a boundary finds nothing attached. -/
theorem isrFlagsAreTheElevenValues : Obligations.IsrFlagsAreTheElevenValues := by
  intro s t h
  rcases execIsr_answer h with rfl | ⟨u, v, flags, flags', boundary, frame, rfl⟩
  · exact ⟨_, rfl, by decide⟩
  · refine ⟨flags', rfl, ?_⟩
    rcases frameEnd_step_flags boundary with rfl | ⟨detached, ended⟩
    · rcases frameStart_step_flags frame with rfl | ⟨-, rfl⟩ | rfl | rfl <;> decide
    · have started : flags' = flags ∨ flags' = flags ||| 0x28#32 ∨ flags' = flags ||| 0x18#32 :=
        (frameStart_step_flags frame).imp_right (Or.resolve_left · fun ⟨attached, _⟩ => attached detached)
      rcases ended with rfl | rfl <;> rcases started with rfl | rfl | rfl <;> decide

end Sys2Proof.Machine
end

section
/-! PROOFS. What START, STOP and ISR alone write: the session and the DMA pair, along every step (42_capture.md R151,
R160). -/

namespace Sys2Proof.Machine

/-! ### The session -/

theorem Session.streaming_of_ne_disabled {x : Session} (h : x ≠ .disabled) : x = .streaming := by
  cases x with
  | disabled => exact absurd rfl h
  | streaming => rfl

theorem frameStart_session {s t : State} {g : Word} (h : frameStart s = .ok (t, g)) :
    t.session = s.session := by
  rcases frameStart_cases h with ⟨-, rfl, -⟩ | ⟨-, -, rfl, -⟩ | ⟨d, -, -, -, rfl, -⟩ <;> rfl

/-- A change leaves the session, or is START out of Disabled or STOP out of Streaming (42_capture.md R151). -/
theorem Change.session {i : Instr} {s t : State} (change : Change i s t) :
    t.session = s.session ∨
      (s.session = .disabled ∧ t.session = .streaming ∧ ∃ cb, i = .start cb) ∨
      (s.session = .streaming ∧ t.session = .disabled ∧ i = .stop) := by
  cases change with
  | start notStreaming =>
    exact .inr (.inl ⟨Session.disabled_of_ne_streaming notStreaming, rfl, _, rfl⟩)
  | stop notDisabled => exact .inr (.inr ⟨Session.streaming_of_ne_disabled notDisabled, rfl, rfl⟩)
  | isrServices _ boundary frame =>
    have kept := handler_keeps State.session frameEnd_session frameStart_session boundary frame
    exact .inl kept
  | unchanged | alloc | free | pub | rel | mode | isrReturns | conv888 | conv565 | wbal | ksetup | kset
    | ksetp => exact .inl rfl

/-- Settles O18: of the effects of a step only the changes of START and STOP move the session. -/
theorem sessionChangesOnlyByStartAndStop : Obligations.SessionChangesOnlyByStartAndStop := by
  intro s s' h
  cases step_effect h with
  | quiet | environment => exact .inl rfl
  | @receiver r => cases r <;> exact .inl rfl
  | @operation i p rest t r next decoded change =>
    have runs : s.Runs i := ⟨p, rest, next, decoded⟩
    rcases change.session with same | ⟨disabled, streams, cb, rfl⟩ | ⟨streaming, ended, rfl⟩
    · exact .inl same
    · exact .inr (.inl ⟨disabled, streams, cb, runs⟩)
    · exact .inr (.inr ⟨streaming, ended, runs⟩)

/-! ### The DMA pair -/

/-- The DMA pair (10_state.md R36). -/
def State.dmaPair (s : State) : Word × Word := (s.dmaStart, s.dmaEnd)

/-- The DMA pair holds a region: its start, and its exclusive end where 32 bits hold it (log 11). -/
structure State.DmaHolds (s : State) (start : Word) (size : Nat) : Prop where
  startsAt : s.dmaStart = start
  endsAt   : start.toNat + size < 2 ^ 32 → s.dmaEnd.toNat = start.toNat + size

/-- A pair programmed as 42_capture.md R159 says holds the region it was programmed with. -/
theorem State.dmaHolds_of_pair {s : State} {start : Word} {size : Nat}
    (pair : s.dmaPair = (start, word32 (start.toNat + size))) : s.DmaHolds start size := by
  obtain ⟨startsAt, endsAt⟩ := Prod.mk.inj pair
  exact ⟨startsAt, fun fits => endsAt ▸ word32_toNat_of_lt fits⟩

/-- t's DMA pair is on the scratch region of s. -/
def State.DmaOnScratch (s t : State) : Prop := t.DmaHolds s.params.scratchAddr s.modeSize

/-- The slot attached is slot IN, and the DMA pair is on its buffer. -/
def State.DmaOnSlotIn (t : State) : Prop :=
  t.attached = some t.inCur ∧ ∃ d, t.slots[t.inCur]? = some d ∧ t.DmaHolds d.pa d.size.toNat

/-- The two selections a frame start can make of the DMA pair (42_capture.md R159). -/
def State.FrameStartSelects (s t : State) : Prop :=
  ((t.inCur + 1) % t.n = t.outCur ∧ s.DmaOnScratch t) ∨ t.DmaOnSlotIn

theorem frameEnd_dmaPair {s t : State} {g : Word} (h : frameEnd s = .ok (t, g)) : t.dmaPair = s.dmaPair := by
  rcases frameEnd_cases h with ⟨-, rfl, -⟩ | ⟨d, -, -, -, rfl, -⟩ <;> rfl

/-- A frame start leaves the DMA pair, or selects a region for it (42_capture.md R159). -/
theorem frameStart_dmaPair {s t : State} {g : Word} (h : frameStart s = .ok (t, g)) :
    t.dmaPair = s.dmaPair ∨ s.FrameStartSelects t := by
  rcases frameStart_cases h with ⟨-, rfl, -⟩ | ⟨-, full, rfl, -⟩ | ⟨d, -, -, found, rfl, -⟩
  · exact .inl rfl
  · exact .inr (.inl ⟨beq_iff_eq.1 full, State.dmaHolds_of_pair rfl⟩)
  · have inPool := (List.getElem?_eq_some_iff.1 found).1
    exact .inr (.inr ⟨rfl, _, List.getElem?_set_self inPool, State.dmaHolds_of_pair rfl⟩)

/-- The handler leaves the DMA pair, or its frame start selects a region for it. -/
theorem handler_dmaPair {s u v : State} {b c : Bool} {flags flags' flags'' : Word}
    (boundary : isrStep b frameEnd s flags = .ok (u, flags'))
    (frame : isrStep c frameStart u flags' = .ok (v, flags'')) :
    v.dmaPair = s.dmaPair ∨ s.FrameStartSelects v := by
  obtain ⟨kept, same⟩ : u.dmaPair = s.dmaPair ∧ s.SamePlacement u :=
    isrStep_rule (P := fun t => t.dmaPair = s.dmaPair ∧ s.SamePlacement t)
      (fun h => ⟨frameEnd_dmaPair h, frameEnd_samePlacement h⟩) boundary ⟨rfl, rfl, rfl, rfl⟩
  have selects : v.dmaPair = u.dmaPair ∨ u.FrameStartSelects v :=
    isrStep_rule (P := fun t => t.dmaPair = u.dmaPair ∨ u.FrameStartSelects t) frameStart_dmaPair frame (.inl rfl)
  rw [kept, State.FrameStartSelects, State.DmaOnScratch, same.params, same.size] at selects
  exact selects

/-- A change leaves the DMA pair, or is START on the scratch region or ISR with the selection of a frame start
(42_capture.md R160). -/
theorem Change.dmaPair {i : Instr} {s t : State} (change : Change i s t) :
    t.dmaPair = s.dmaPair ∨ ((∃ cb, i = .start cb) ∧ s.DmaOnScratch t) ∨
      (i = .isr ∧ s.FrameStartSelects t) := by
  cases change with
  | start => exact .inr (.inl ⟨⟨_, rfl⟩, State.dmaHolds_of_pair rfl⟩)
  | isrServices _ boundary frame =>
    have selects := handler_dmaPair boundary frame
    exact selects.imp_right fun selects => .inr ⟨rfl, selects⟩
  | unchanged | alloc | free | pub | rel | mode | stop | isrReturns | conv888 | conv565 | wbal | ksetup
    | kset | ksetp => exact .inl rfl

/-- Settles O20: of the effects of a step only the changes of START and ISR write the DMA pair. -/
theorem dmaPairHasTwoSources : Obligations.DmaPairHasTwoSources := by
  intro s s' h
  have pair_iff : s'.dmaPair = s.dmaPair ↔ s'.dmaStart = s.dmaStart ∧ s'.dmaEnd = s.dmaEnd :=
    Prod.mk_inj
  rw [← pair_iff]
  cases step_effect h with
  | quiet | environment => exact .inl rfl
  | @receiver r => cases r <;> exact .inl rfl
  | @operation i p rest t r next decoded change =>
    have runs : s.Runs i := ⟨p, rest, next, decoded⟩
    rcases change.dmaPair with same | ⟨⟨cb, rfl⟩, startsAt, endsAt⟩ |
      ⟨rfl, ⟨full, startsAt, endsAt⟩ | ⟨attached, d, found, startsAt, endsAt⟩⟩
    · exact .inl same
    · exact .inr (.inl ⟨.inl ⟨cb, runs⟩, startsAt, endsAt⟩)
    · exact .inr (.inl ⟨.inr ⟨runs, full⟩, startsAt, endsAt⟩)
    · exact .inr (.inr ⟨runs, attached, d, found, startsAt, endsAt⟩)

end Sys2Proof.Machine
end

section
/-! PROOFS. What a decode gives: the raw triple of a readable pixel, zero on the border, and its scaled channels. -/

namespace Sys2Proof.Machine

/-! ### Samples and averages of readable containers -/

/-- A container holds at most two bytes. -/
theorem State.rawSample_lt (s : State) (d : Slot) (x y : Nat) : s.rawSample d x y < 65536 := by
  unfold State.rawSample State.byteAt
  split <;> omega

section
variable {s : State} {d : Slot} {x y : Nat} (legal : LegalFormat d.fmt)
include legal

theorem sample_of_readable (readable : s.ReadableAt d x y) : sample s.mem d x y = .ok (s.rawSample d x y) := by
  obtain ⟨space, small⟩ := readable
  rw [sample_eq legal space, if_neg (by omega)]

theorem orthogonal_of_readable
    (readable : ∀ q ∈ [(x - 1, y), (x + 1, y), (x, y - 1), (x, y + 1)], s.ReadableAt d q.1 q.2) :
    orthogonal s.mem d x y = .ok
      ((s.rawSample d (x - 1) y + s.rawSample d (x + 1) y + s.rawSample d x (y - 1) +
        s.rawSample d x (y + 1)) / 4) := by
  simp only [List.forall_mem_cons] at readable
  obtain ⟨left, right, above, below, -⟩ := readable
  rw [orthogonal, sample_of_readable legal left, sample_of_readable legal right,
    sample_of_readable legal above, sample_of_readable legal below]
  rfl

theorem diagonal_of_readable
    (readable : ∀ q ∈ [(x - 1, y - 1), (x + 1, y - 1), (x - 1, y + 1), (x + 1, y + 1)],
      s.ReadableAt d q.1 q.2) :
    diagonal s.mem d x y = .ok
      ((s.rawSample d (x - 1) (y - 1) + s.rawSample d (x + 1) (y - 1) + s.rawSample d (x - 1) (y + 1) +
        s.rawSample d (x + 1) (y + 1)) / 4) := by
  simp only [List.forall_mem_cons] at readable
  obtain ⟨aboveLeft, aboveRight, belowLeft, belowRight, -⟩ := readable
  rw [diagonal, sample_of_readable legal aboveLeft, sample_of_readable legal aboveRight,
    sample_of_readable legal belowLeft, sample_of_readable legal belowRight]
  rfl

theorem horizontal_of_readable (left : s.ReadableAt d (x - 1) y) (right : s.ReadableAt d (x + 1) y) :
    horizontal s.mem d x y = .ok ((s.rawSample d (x - 1) y + s.rawSample d (x + 1) y) / 2) := by
  rw [horizontal, sample_of_readable legal left, sample_of_readable legal right]
  rfl

theorem vertical_of_readable (above : s.ReadableAt d x (y - 1)) (below : s.ReadableAt d x (y + 1)) :
    vertical s.mem d x y = .ok ((s.rawSample d x (y - 1) + s.rawSample d x (y + 1)) / 2) := by
  rw [vertical, sample_of_readable legal above, sample_of_readable legal below]
  rfl

/-! ### The triple of a pixel -/

/-- The decode of a readable interior pixel is its raw triple (43_pixel.md R181). -/
theorem demosaic_interior (interior : d.Interior x y) (readable : s.ReadableAround d x y) :
    demosaic s.mem d x y = .ok (s.rawTriple d x y) := by
  obtain ⟨near, far⟩ := List.forall_mem_append.1 readable
  obtain ⟨centre, cross⟩ := List.forall_mem_cons.1 near
  have own := sample_of_readable legal centre
  have orth := orthogonal_of_readable legal cross
  simp only [List.forall_mem_cons] at cross
  obtain ⟨left, right, above, below, -⟩ := cross
  have hor := horizontal_of_readable legal left right
  have ver := vertical_of_readable legal above below
  unfold demosaic State.rawTriple
  rw [if_neg (Bool.eq_false_iff.1 (not_isBorder interior))]
  rcases colour_cases d.fmt x y with ⟨col, id⟩ | ⟨col, id⟩ | ⟨col, id⟩ | ⟨col, id⟩
  · rw [if_pos (.inl id)] at far
    simp only [col, id, own, orth, diagonal_of_readable legal far]
    rfl
  · simp only [col, id, own, hor, ver]
    rfl
  · simp only [col, id, own, hor, ver]
    rfl
  · rw [if_pos (.inr id)] at far
    simp only [col, id, own, orth, diagonal_of_readable legal far]
    rfl

end

theorem Slot.Interior.in_frame {d : Slot} {x y : Nat} (interior : d.Interior x y) :
    x < d.w.toNat ∧ y < d.h.toNat := by
  obtain ⟨-, right, -, below⟩ := interior
  omega

theorem isBorder_iff (d : Slot) (x y : Nat) :
    isBorder d x y = true ↔ x = 0 ∨ x + 1 = d.w.toNat ∨ y = 0 ∨ y + 1 = d.h.toNat := by
  simp [isBorder, or_assoc]

/-- The decode of any pixel of a frame with a readable interior (43_pixel.md R181, R183). -/
theorem demosaic_frame {s : State} {d : Slot} {x y : Nat} (legal : LegalFormat d.fmt)
    (readable : ∀ x y, d.Interior x y → s.ReadableAround d x y) (hx : x < d.w.toNat) (hy : y < d.h.toNat) :
    demosaic s.mem d x y = .ok (s.frameTriple d x y) := by
  unfold State.frameTriple
  split
  next border => exact demosaic_border _ _ _ _ ((isBorder_iff ..).2 border)
  next inside =>
    have interior : d.Interior x y := by
      unfold Slot.Interior
      omega
    exact demosaic_interior legal interior (readable x y interior)

/-- The channels of a raw triple are samples or averages of samples. -/
theorem State.rawTriple_lt (s : State) (d : Slot) (x y : Nat) :
    (s.rawTriple d x y).r < 65536 ∧ (s.rawTriple d x y).g < 65536 ∧ (s.rawTriple d x y).b < 65536 := by
  have bound := s.rawSample_lt d
  have mean2 {a b : Nat} (ha : a < 65536) (hb : b < 65536) : (a + b) / 2 < 65536 := by omega
  have mean4 {a b c e : Nat} (ha : a < 65536) (hb : b < 65536) (hc : c < 65536) (he : e < 65536) :
      (a + b + c + e) / 4 < 65536 := by omega
  have own := bound x y
  have orth := mean4 (bound (x - 1) y) (bound (x + 1) y) (bound x (y - 1)) (bound x (y + 1))
  have diag := mean4 (bound (x - 1) (y - 1)) (bound (x + 1) (y - 1)) (bound (x - 1) (y + 1))
    (bound (x + 1) (y + 1))
  have hor := mean2 (bound (x - 1) y) (bound (x + 1) y)
  have ver := mean2 (bound x (y - 1)) (bound x (y + 1))
  unfold State.rawTriple
  rcases colour_cases d.fmt x y with ⟨-, id⟩ | ⟨-, id⟩ | ⟨-, id⟩ | ⟨-, id⟩ <;> simp only [id]
  · exact ⟨own, orth, diag⟩
  · exact ⟨hor, own, ver⟩
  · exact ⟨ver, own, hor⟩
  · exact ⟨diag, orth, own⟩

/-! ### Scaled channels and packed words -/

/-- The two texts of R186 agree where the target is no deeper than the sample. -/
theorem scale_eq_channelOut (v : Nat) (g : Word) {depth bits : Nat} (h : bits ≤ depth) :
    scale v g depth bits = channelOut v g depth bits := by
  rw [scale, channelOut, Nat.shiftRight_eq_div_pow, Nat.sub_add_comm h]

theorem channelOut_lt (v : Nat) (g : Word) (depth bits : Nat) : channelOut v g depth bits < 2 ^ bits := by
  have := Nat.two_pow_pos bits
  unfold channelOut
  omega

@[simp] theorem channelOut_zero (g : Word) (depth bits : Nat) : channelOut 0 g depth bits = 0 := by
  simp [channelOut]

/-- The fields of an RGB565 word do not overlap (30_encoding.md R109). -/
theorem packRgb565_eq {r g b : Nat} (hg : g < 64) (hb : b < 32) :
    packRgb565 r g b = r * 2048 + g * 32 + b := by
  unfold packRgb565
  have low : g <<< 5 + b = g <<< 5 ||| b := Nat.shiftLeft_add_eq_or_of_lt hb g
  have high : r <<< 11 + (g <<< 5 + b) = r <<< 11 ||| (g <<< 5 + b) :=
    Nat.shiftLeft_add_eq_or_of_lt (by rw [Nat.shiftLeft_eq]; omega) r
  rw [Nat.or_assoc, ← low, ← high, Nat.shiftLeft_eq, Nat.shiftLeft_eq, Nat.add_assoc]

theorem LegalFormat.depth_ge {fmt : Half} (legal : LegalFormat fmt) : 8 ≤ fmt.toNat % 16 + 1 := by
  rcases legal.2 with h | h <;> omega

theorem toRgb888_eq {d : Slot} (legal : LegalFormat d.fmt) (p : Rgb) :
    toRgb888 d p = ⟨d.out888 p 0, d.out888 p 1, d.out888 p 2⟩ := by
  have depth := legal.depth_ge
  simp [toRgb888, Slot.out888, fmtDepth_eq, scale_eq_channelOut _ _ depth]

theorem toRgb565_eq {d : Slot} (legal : LegalFormat d.fmt) (p : Rgb) : toRgb565 d p = d.out565 p := by
  have depth := legal.depth_ge
  simp only [toRgb565, fmtDepth_eq, scale_eq_channelOut _ _ (show 5 ≤ d.fmt.toNat % 16 + 1 by omega),
    scale_eq_channelOut _ _ (show 6 ≤ d.fmt.toNat % 16 + 1 by omega)]
  exact packRgb565_eq (channelOut_lt ..) (channelOut_lt ..)

theorem Slot.out888_lt (d : Slot) (p : Rgb) (c : Nat) : d.out888 p c < 256 := by
  unfold Slot.out888
  dsimp only
  split
  · exact channelOut_lt ..
  · split <;> exact channelOut_lt ..

theorem Slot.out565_lt (d : Slot) (p : Rgb) : d.out565 p < 65536 := by
  have red : channelOut p.r d.gainR (d.fmt.toNat % 16 + 1) 5 < 32 := channelOut_lt ..
  have green : channelOut p.g d.gainG (d.fmt.toNat % 16 + 1) 6 < 64 := channelOut_lt ..
  have blue : channelOut p.b d.gainB (d.fmt.toNat % 16 + 1) 5 < 32 := channelOut_lt ..
  unfold Slot.out565
  dsimp only
  omega

end Sys2Proof.Machine
end

section
/-! PROOFS. GETPIX, PIX888 and PIX565: their checks, and their answers on the border and inside the frame. -/

namespace Sys2Proof.Machine

/-! ### The answers of a decoded pixel -/

section
variable {s : State} {i : Byte} {d : Slot} (decodes : s.MayDecode i d) (legal : LegalFormat d.fmt)
include decodes legal

section
variable {x y : Word} {p : Rgb} (hx : x.toNat < d.w.toNat) (hy : y.toNat < d.h.toNat)
  (decoded : demosaic s.mem d x.toNat y.toNat = .ok p)
include hx hy decoded

/-- A pixel operation inside the frame goes on with the decoded triple. -/
theorem pixel_decoded (k : Slot → Rgb → Out) :
    (withPixel s i x y fun d => onSamples s (demosaic s.mem d x.toNat y.toNat) (k d)) = k d p := by
  rw [withPixel_of_mayDecode decodes legal hx hy, decoded]
  rfl

/-- GETPIX answers the triple itself (43_pixel.md R182). -/
theorem getpix_decoded (fits : p.r < 65536 ∧ p.g < 65536 ∧ p.b < 65536) :
    exec (.getpix i x y) s =
      .next (s.answering .ok (BitVec.ofNat 32 p.r) (BitVec.ofNat 32 p.g) (BitVec.ofNat 32 p.b)) := by
  obtain ⟨hr, hg, hb⟩ := fits
  show execGetpix i x y s = _
  rw [execGetpix, pixel_decoded decodes legal hx hy decoded, respond_eq, word32_of_lt (by omega),
    word32_of_lt (by omega), word32_of_lt (by omega)]

/-- PIX888 answers the three scaled channels (43_pixel.md R187). -/
theorem pix888_decoded :
    exec (.pix888 i x y) s =
      .next (s.answering .ok (BitVec.ofNat 32 (d.out888 p 0)) (BitVec.ofNat 32 (d.out888 p 1))
        (BitVec.ofNat 32 (d.out888 p 2))) := by
  have fits (c : Nat) : word32 (d.out888 p c) = BitVec.ofNat 32 (d.out888 p c) :=
    word32_of_lt ((d.out888_lt p c).trans (by decide))
  show execPix888 i x y s = _
  rw [execPix888, pixel_decoded decodes legal hx hy decoded, toRgb888_eq legal, respond_eq, fits, fits, fits]

/-- PIX565 answers the packed word (43_pixel.md R188). -/
theorem pix565_decoded :
    exec (.pix565 i x y) s = .next (s.answering .ok (BitVec.ofNat 32 (d.out565 p))) := by
  show execPix565 i x y s = _
  rw [execPix565, pixel_decoded decodes legal hx hy decoded, toRgb565_eq legal, respond_eq,
    word32_of_lt ((d.out565_lt p).trans (by decide))]

end

theorem getpix_interior {x y : Word} (interior : d.Interior x.toNat y.toNat)
    (readable : s.ReadableAround d x.toNat y.toNat) {p : Rgb} (triple : s.rawTriple d x.toNat y.toNat = p) :
    exec (.getpix i x y) s =
      .next (s.answering .ok (BitVec.ofNat 32 p.r) (BitVec.ofNat 32 p.g) (BitVec.ofNat 32 p.b)) := by
  subst triple
  obtain ⟨hx, hy⟩ := interior.in_frame
  exact getpix_decoded decodes legal hx hy (demosaic_interior legal interior readable)
    (s.rawTriple_lt d _ _)

end

/-- Settles O44: the zero triple needs no sample, and scaling keeps it zero. -/
theorem borderPixelsAreZero : Obligations.BorderPixelsAreZero := by
  intro s i d x y decodes legal
  refine ⟨fun ⟨hx, hy, border⟩ => ?_, fun small hx hy => ⟨hx, hy, by omega⟩⟩
  have decoded := demosaic_border s.mem d x.toNat y.toNat ((isBorder_iff ..).2 border)
  refine ⟨getpix_decoded decodes legal hx hy decoded (by decide), ?_, ?_⟩
  · rw [pix888_decoded decodes legal hx hy decoded]
    simp [Slot.out888, Rgb.zero]
  · rw [pix565_decoded decodes legal hx hy decoded]
    simp [Slot.out565, Rgb.zero]

/-- Settles O45: the decode of an interior pixel is the raw triple. -/
theorem getpixReconstructsTheTriple : Obligations.GetpixReconstructsTheTriple := by
  intro s i d x y decodes legal interior readable
  exact getpix_interior decodes legal interior readable rfl

/-- Settles O46: both forms scale the same decoded triple. -/
theorem pixelsAreScaledAndPacked : Obligations.PixelsAreScaledAndPacked := by
  intro s i d x y decodes legal interior readable
  obtain ⟨hx, hy⟩ := interior.in_frame
  have decoded := demosaic_interior legal interior readable
  exact ⟨pix888_decoded decodes legal hx hy decoded, pix565_decoded decodes legal hx hy decoded⟩

/-! ### Bayer tiles -/

/-- In each of the four tiles a step in x toggles bit 0 of the colour id and a step in y bit 1. -/
theorem bayerTile_toggles : ∀ tile ∈ [0xE4, 0xB1, 0x4E, 0x1B], ∀ p < 2, ∀ q < 2, ∀ p' < 2, ∀ q' < 2,
    tile / 4 ^ (p' + 2 * q') % 4 =
      (tile / 4 ^ (p + 2 * q) % 4) ^^^ ((p + p') % 2 + 2 * ((q + q') % 2)) := by
  decide

/-- The colour id is a two-bit field of the tile byte fmt[11:4] (30_encoding.md R105). -/
theorem colourId_eq_tile (fmt : Half) (x y : Nat) :
    colourId fmt x y = fmt.toNat / 16 % 256 / 4 ^ (x % 2 + 2 * (y % 2)) % 4 := by
  unfold colourId
  rcases Nat.mod_two_eq_zero_or_one x with hx | hx <;>
    rcases Nat.mod_two_eq_zero_or_one y with hy | hy <;> simp only [hx, hy] <;> omega

theorem colourId_of_parity {fmt : Half} (tile : fmt.toNat / 16 % 256 ∈ [0xE4, 0xB1, 0x4E, 0x1B])
    (x y u v : Nat) :
    colourId fmt u v = colourId fmt x y ^^^ ((x + u) % 2 + 2 * ((y + v) % 2)) := by
  have bit (k : Nat) : k % 2 < 2 := Nat.mod_lt k (by decide)
  rw [colourId_eq_tile, colourId_eq_tile, Nat.add_mod x u, Nat.add_mod y v]
  exact bayerTile_toggles _ tile _ (bit x) _ (bit y) _ (bit u) _ (bit v)

/-- The channel of a triple that the colour id names, both greens being one. -/
def Rgb.ofColourId (p : Rgb) (id : Nat) : Nat := if id = 0 then p.r else if id = 3 then p.b else p.g

/-- Where every sample is the constant of its colour the raw triple is the constants: the averages are of equal numbers
(43_pixel.md R185). -/
theorem rawTriple_of_constant {s : State} {d : Slot} {x y : Nat} {p : Rgb}
    (tile : d.fmt.toNat / 16 % 256 ∈ [0xE4, 0xB1, 0x4E, 0x1B])
    (constant : ∀ u v, u < d.w.toNat → v < d.h.toNat →
      s.rawSample d u v = p.ofColourId (colourId d.fmt u v))
    (interior : d.Interior x y) : s.rawTriple d x y = p := by
  obtain ⟨left, right, above, below⟩ := interior
  have sampled {u v dx dy : Nat} (hu : u < d.w.toNat) (hv : v < d.h.toNat) (hdx : (x + u) % 2 = dx)
      (hdy : (y + v) % 2 = dy) :
      s.rawSample d u v = p.ofColourId (colourId d.fmt x y ^^^ (dx + 2 * dy)) := by
    rw [constant u v hu hv, colourId_of_parity tile x y, hdx, hdy]
  have columns : (x + (x - 1)) % 2 = 1 ∧ (x + x) % 2 = 0 ∧ (x + (x + 1)) % 2 = 1 := by omega
  have rows : (y + (y - 1)) % 2 = 1 ∧ (y + y) % 2 = 0 ∧ (y + (y + 1)) % 2 = 1 := by omega
  obtain ⟨toLeft, same, toRight⟩ := columns
  obtain ⟨up, level, down⟩ := rows
  unfold State.rawTriple
  simp only [sampled (show x - 1 < _ by omega) (show y - 1 < _ by omega) toLeft up,
    sampled (show x < _ by omega) (show y - 1 < _ by omega) same up,
    sampled (show x + 1 < _ by omega) (show y - 1 < _ by omega) toRight up,
    sampled (show x - 1 < _ by omega) (show y < _ by omega) toLeft level,
    sampled (show x < _ by omega) (show y < _ by omega) same level,
    sampled (show x + 1 < _ by omega) (show y < _ by omega) toRight level,
    sampled (show x - 1 < _ by omega) (show y + 1 < _ by omega) toLeft down,
    sampled (show x < _ by omega) (show y + 1 < _ by omega) same down,
    sampled (show x + 1 < _ by omega) (show y + 1 < _ by omega) toRight down]
  have mean2 (a : Nat) : (a + a) / 2 = a := by omega
  have mean4 (a : Nat) : (a + a + a + a) / 4 = a := by omega
  rcases colour_cases d.fmt x y with ⟨-, id⟩ | ⟨-, id⟩ | ⟨-, id⟩ | ⟨-, id⟩ <;>
    simp [id, Rgb.ofColourId, mean2, mean4]

/-- Settles O47: GETPIX answers the raw triple, which is the three constants. -/
theorem demosaicIsExactOnConstantColours : Obligations.DemosaicIsExactOnConstantColours := by
  intro s i d x y r g b decodes legal tile hr hg hb buffer interior
  have constant : ∀ u v, u < d.w.toNat → v < d.h.toNat →
      s.rawSample d u v = Rgb.ofColourId ⟨r, g, b⟩ (colourId d.fmt u v) := fun u v hu hv => (buffer u v hu hv).2
  have readable : s.ReadableAround d x.toNat y.toNat := by
    intro q read
    obtain ⟨hu, hv⟩ := Slot.samplesRead_in_frame interior read
    refine ⟨(buffer _ _ hu hv).1, ?_⟩
    rw [constant _ _ hu hv, Rgb.ofColourId]
    split
    · exact hr
    · split
      · exact hb
      · exact hg
  exact getpix_interior decodes legal interior readable (rawTriple_of_constant tile constant interior)

/-! ### Refusal and rejection -/

/-- A slot that does not exist, may not be decoded or has no sample layout fails the shared checks (43_pixel.md R180,
20_memory.md R73). -/
theorem withDecodable_refuses {s : State} {i : Byte}
    (bad : s.n ≤ i.toNat ∨ (s.session = .streaming ∧ (s.inCur = s.outCur ∨ i.toNat ≠ s.outCur)) ∨
      ∃ d, s.slots[i.toNat]? = some d ∧ ¬ LegalFormat d.fmt) (k : Slot → Out) :
    withDecodable s i k = .next (s.answering .illegal) := by
  rcases withDecodable_cases s i k with refused | ⟨d, found, decodes, layout, -⟩
  · exact refused
  · obtain ⟨present, may⟩ := (decodable_iff ..).1 decodes
    obtain ⟨bps, hbps⟩ := Option.isSome_iff_exists.1 layout
    have legal := ((bytesPerSample_eq_some_iff ..).1 hbps).1
    exfalso
    rcases bad with absent | ⟨streaming, notHead⟩ | ⟨e, found', illegal⟩
    · omega
    · have notDisabled := Session.ne_disabled_of_eq_streaming streaming
      rcases may with ⟨notEmpty, head⟩ | disabled
      · exact notHead.elim notEmpty (· head)
      · exact notDisabled disabled
    · cases found.symm.trans found'
      exact illegal legal

/-- A coordinate outside the frame is rejected (43_pixel.md R180 check 3). -/
theorem withPixel_rejects {s : State} {i : Byte} {d : Slot} {x y : Word} (decodes : s.MayDecode i d)
    (legal : LegalFormat d.fmt) (outside : d.w.toNat ≤ x.toNat ∨ d.h.toNat ≤ y.toNat) (k : Slot → Out) :
    withPixel s i x y k = .next (s.answering .rejected) := by
  rw [withPixel, withDecodable_of_mayDecode decodes legal, if_neg (by omega)]
  rfl

/-- Settles O48: the six operations share the checks, the three pixel forms the rejection. -/
theorem pixelOperationsRefuseAndReject : Obligations.PixelOperationsRefuseAndReject := by
  intro s i x y
  refine ⟨fun bad => ?_, fun d decodes legal outside => ?_⟩
  · have refused := withDecodable_refuses bad
    exact ⟨refused _, refused _, refused _, refused _, refused _, refused _⟩
  · have rejected := withPixel_rejects decodes legal outside
    exact ⟨rejected _, rejected _, rejected _⟩

end Sys2Proof.Machine
end

section
/-! PROOFS. CONV888 and CONV565: where each pixel's bytes stand in raster order, and the stored frame read back. -/

namespace Sys2Proof.Machine

/-! ### Raster order -/

/-- In a list of blocks of k entries each, entry c of block j is entry k j + c. -/
theorem getElem?_flatMap_blocks {α β : Type} {f : α → List β} {k : Nat} (size : ∀ a, (f a).length = k)
    {l : List α} {j c : Nat} {a : α} (found : l[j]? = some a) (hc : c < k) :
    (l.flatMap f)[k * j + c]? = (f a)[c]? := by
  induction l generalizing j with
  | nil => simp at found
  | cons b l ih =>
    rw [List.flatMap_cons]
    cases j with
    | zero =>
      obtain rfl : b = a := by simpa using found
      rw [Nat.mul_zero, Nat.zero_add, List.getElem?_append_left (by rw [size]; exact hc)]
    | succ j =>
      rw [List.getElem?_append_right (by rw [size, Nat.mul_succ]; omega), size,
        show k * (j + 1) + c - k = k * j + c by rw [Nat.mul_succ]; omega]
      exact ih (by simpa using found)

/-- Pixel (x, y) stands at place y w + x of the raster (43_pixel.md R189). -/
theorem getElem?_raster {w h x y : Nat} (hx : x < w) (hy : y < h) :
    (raster w h)[y * w + x]? = some (x, y) := by
  have row : (List.range h)[y]? = some y := List.getElem?_range hy
  rw [raster, Nat.mul_comm, getElem?_flatMap_blocks (by simp) row hx]
  simp [hx]

/-! ### The stored frame -/

/-- The bytes of the pixel p of a frame. -/
def State.pixelBytes (s : State) (d : Slot) (bytesOf : Rgb → List Byte) (p : Nat × Nat) : List Byte :=
  bytesOf (s.frameTriple d p.1 p.2)

/-- The bytes of a frame in raster order (43_pixel.md R189). -/
def State.frameBytes (s : State) (d : Slot) (bytesOf : Rgb → List Byte) : List Byte :=
  (raster d.w.toNat d.h.toNat).flatMap (s.pixelBytes d bytesOf)

/-- The conversion of a frame with a readable interior gives its bytes. -/
theorem convertPixels_frame {s : State} {d : Slot} (legal : LegalFormat d.fmt)
    (readable : ∀ x y, d.Interior x y → s.ReadableAround d x y) (bytesOf : Rgb → List Byte) :
    convertPixels s.mem d bytesOf (raster d.w.toNat d.h.toNat) = .ok (s.frameBytes d bytesOf) :=
  convertPixels_ok _ _ _ (fun p => s.frameTriple d p.1 p.2) _ fun _ listed =>
    demosaic_frame legal readable (mem_raster.1 listed).1 (mem_raster.1 listed).2

section
variable {s : State} {d : Slot} {bytesOf : Rgb → List Byte} {bpp : Nat}
  (size : ∀ p, (bytesOf p).length = bpp)
include size

theorem State.frameBytes_length : (s.frameBytes d bytesOf).length = bpp * (d.w.toNat * d.h.toNat) := by
  have block (p : Nat × Nat) : (s.pixelBytes d bytesOf p).length = bpp := size _
  simp [State.frameBytes, List.length_flatMap, block, raster_length, Nat.mul_comm]

/-- Byte c of pixel (x, y) stands at place bpp (y w + x) + c of the frame. -/
theorem State.getElem?_frameBytes {x y c : Nat} (hx : x < d.w.toNat) (hy : y < d.h.toNat) (hc : c < bpp) :
    (s.frameBytes d bytesOf)[bpp * (y * d.w.toNat + x) + c]? = (bytesOf (s.frameTriple d x y))[c]? :=
  getElem?_flatMap_blocks (fun _ => size _) (getElem?_raster hx hy) hc

end

/-- A byte of a stored list is read back at its place. -/
theorem read_writeBytes_of_getElem? {m : Memory} (wf : Memory.wf m) (a : Nat) {k : Nat} {bs : List Byte}
    {b : Byte} (listed : bs[k]? = some b) : Memory.read (Memory.writeBytes m a bs) (a + k) = b := by
  obtain ⟨place, value⟩ := List.getElem?_eq_some_iff.1 listed
  rw [Memory.read_writeBytes_inside m a k bs wf place, value]

/-- A conversion with an admitted destination and a readable interior stores each pixel's bytes at its place in raster
order, and nothing outside the destination (43_pixel.md R189, R190). -/
theorem convertFrame_stores {s : State} {i : Byte} {d : Slot} {dst : Word} {bpp : Nat}
    {bytesOf : Slot → Rgb → List Byte} (decodes : s.MayDecode i d) (legal : LegalFormat d.fmt)
    (memory : s.MemoryOk) (readable : ∀ x y, d.Interior x y → s.ReadableAround d x y)
    (free : s.DestinationFree dst.toNat (bpp * (d.w.toNat * d.h.toNat)))
    (fits : bpp * (d.w.toNat * d.h.toNat) < 2 ^ 32) (size : ∀ p, (bytesOf d p).length = bpp) :
    ∃ m, convertFrame i dst bpp bytesOf s =
        .next (State.answering { s with mem := m } .ok (BitVec.ofNat 32 (bpp * (d.w.toNat * d.h.toNat)))) ∧
      (∀ x y c b, x < d.w.toNat → y < d.h.toNat → c < bpp → (bytesOf d (s.frameTriple d x y))[c]? = some b →
        Memory.read m (dst.toNat + bpp * (y * d.w.toNat + x) + c) = b) ∧
      (∀ a, a < dst.toNat ∨ dst.toNat + bpp * (d.w.toNat * d.h.toNat) ≤ a →
        Memory.read m a = Memory.read s.mem a) := by
  refine ⟨Memory.writeBytes s.mem dst.toNat (s.frameBytes d (bytesOf d)), ?_,
    fun x y c b hx hy hc byte => ?_, fun a outside => ?_⟩
  · rw [convertFrame_of_mayDecode decodes legal, if_neg (by simp [(destinationAdmitted_iff ..).2 free]),
      convertPixels_frame legal readable, word32_of_lt fits]
    rfl
  · rw [Nat.add_assoc]
    exact read_writeBytes_of_getElem? memory.1 _ ((State.getElem?_frameBytes size hx hy hc).trans byte)
  · rw [← State.frameBytes_length size] at outside
    exact Memory.read_writeBytes_outside _ _ _ _ outside

/-! ### CONV888 -/

/-- Byte c of a pixel is the scaled channel c (30_encoding.md R108). -/
theorem bytes888_getElem? {d : Slot} (legal : LegalFormat d.fmt) (p : Rgb) {c : Nat} (hc : c < 3) :
    (bytes888 d p)[c]? = some (BitVec.ofNat 8 (d.out888 p c)) := by
  rw [bytes888, toRgb888_eq legal]
  interval_cases c <;> rfl

/-- Settles O50: 3 w h is no power of two, so it fits the result word, and a channel byte fits a byte. -/
theorem conv888WritesTheFrame : Obligations.Conv888WritesTheFrame := by
  intro s i d dst decodes legal memory readable free
  have fits : 3 * (d.w.toNat * d.h.toNat) < 2 ^ 32 := by
    have := free.1
    omega
  obtain ⟨m, runs, stored, outside⟩ := convertFrame_stores decodes legal memory readable free fits
    (bytes888_length d)
  refine ⟨m, runs, fun x y c hx hy hc => ?_, outside⟩
  rw [stored x y c _ hx hy hc (bytes888_getElem? legal _ hc), BitVec.toNat_ofNat]
  exact Nat.mod_eq_of_lt (d.out888_lt _ c)

/-! ### CONV565 -/

/-- The two bytes of a pixel are those of its word, low byte first (20_memory.md R75). -/
theorem bytes565_eq {d : Slot} (legal : LegalFormat d.fmt) (p : Rgb) :
    bytes565 d p = [BitVec.ofNat 8 (d.out565 p), BitVec.ofNat 8 (d.out565 p / 256)] := by
  rw [bytes565, toRgb565_eq legal]
  rfl

/-- A product of two 16-bit numbers is not 2^31: both factors would be powers of two, each at most 2^15. -/
theorem half_mul_half_ne (w h : Half) : w.toNat * h.toNat ≠ 2 ^ 31 := by
  intro product
  obtain ⟨a, -, ha⟩ := (Nat.dvd_prime_pow Nat.prime_two).1 (Dvd.intro _ product)
  obtain ⟨b, -, hb⟩ := (Nat.dvd_prime_pow Nat.prime_two).1 (Dvd.intro_left _ product)
  have a_lt : a < 16 := (Nat.pow_lt_pow_iff_right (by decide)).1 (ha ▸ w.isLt)
  have b_lt : b < 16 := (Nat.pow_lt_pow_iff_right (by decide)).1 (hb ▸ h.isLt)
  rw [ha, hb, ← Nat.pow_add] at product
  have := Nat.pow_right_injective (le_refl 2) product
  omega

/-- Settles O51: 2 w h is not 2^32, so it fits the result word, and the two bytes make up the pixel's word. -/
theorem conv565WritesTheFrame : Obligations.Conv565WritesTheFrame := by
  intro s i d dst decodes legal memory readable free
  have fits : 2 * (d.w.toNat * d.h.toNat) < 2 ^ 32 := by
    have := free.1
    have := half_mul_half_ne d.w d.h
    omega
  obtain ⟨m, runs, stored, outside⟩ := convertFrame_stores decodes legal memory readable free fits
    (bytes565_length d)
  refine ⟨m, runs, fun x y hx hy => ?_, outside⟩
  have bytes := bytes565_eq legal (s.frameTriple d x y)
  have low := stored x y 0 _ hx hy (by decide) (by rw [bytes]; rfl)
  have high := stored x y 1 _ hx hy (by decide) (by rw [bytes]; rfl)
  have word := d.out565_lt (s.frameTriple d x y)
  rw [Nat.add_zero] at low
  rw [low, high, BitVec.toNat_ofNat, BitVec.toNat_ofNat]
  omega

end Sys2Proof.Machine
end

section
/-! PROOFS. The generator of WBAL and its mapping, and what the rounds total: the maxima of the sampled triples. -/

namespace Sys2Proof.Machine

/-! ### The generator -/

theorem wbNext_toNat (seed : Word) : (wbNext seed).toNat = (seed.toNat * 1103515245 + 12345) % 2 ^ 32 := by
  rw [← seedAfter_one, seedAfter, BitVec.toNat_ofNat]
  rfl

/-- The value of a seed is its bits 30:16 (44_whitebalance.md R211). -/
theorem wbValue_eq_bits (seed : Word) : wbValue seed = (seed.extractLsb' 16 15).toNat := by
  rw [BitVec.extractLsb'_toNat, Nat.shiftRight_eq_div_pow]
  rfl

/-- Bit 31 of a seed reaches no bit of the next value (44_whitebalance.md R211). -/
theorem wbValue_wbNext_congr {a b : Word} (low : a.toNat % 2 ^ 31 = b.toNat % 2 ^ 31) :
    wbValue (wbNext a) = wbValue (wbNext b) := by
  have recurrence := Nat.ModEq.add_right 12345 (Nat.ModEq.mul_right 1103515245 low)
  have bits (seed : Word) : wbValue seed = seed.toNat % 2 ^ 31 / 65536 := by
    unfold wbValue
    omega
  rw [bits, bits, wbNext_toNat, wbNext_toNat, Nat.mod_mod_of_dvd _ (by decide), Nat.mod_mod_of_dvd _ (by decide),
    recurrence]

/-- The mapping keeps off both borders of a frame with an interior (44_whitebalance.md R212). -/
theorem wbMap_bounds (value : Nat) {dim : Nat} (h : 3 ≤ dim) :
    1 ≤ wbMap value dim ∧ wbMap value dim ≤ dim - 2 := by
  have := Nat.mod_lt value (show 0 < dim - 2 by omega)
  unfold wbMap
  omega

/-- Settles O56: the recurrence, the bits of the value, their independence of bit 31, and the bounds of the mapping. -/
theorem generatorAndMapping : Obligations.GeneratorAndMapping :=
  ⟨fun seed => ⟨wbNext_toNat seed, rfl, wbValue_eq_bits _⟩, fun _ _ => wbValue_wbNext_congr,
    fun v _ h => ⟨rfl, wbMap_bounds v h⟩⟩

/-! ### Triples channel by channel -/

/-- The triple of a quantity given per channel. -/
def Rgb.ofChannels (f : (Rgb → Nat) → Nat) : Rgb := ⟨f Rgb.r, f Rgb.g, f Rgb.b⟩

theorem Rgb.zero_max (p : Rgb) : Rgb.zero.max p = p := by
  simp [Rgb.max, Rgb.zero]

theorem Rgb.max_zero (p : Rgb) : p.max Rgb.zero = p := by
  simp [Rgb.max, Rgb.zero]

theorem Rgb.max_assoc (p q t : Rgb) : (p.max q).max t = p.max (q.max t) := by
  simp [Rgb.max, Nat.max_assoc]

theorem Rgb.zero_add (p : Rgb) : Rgb.zero.add p = p := by
  simp [Rgb.add, Rgb.zero]

theorem Rgb.add_assoc (p q t : Rgb) : (p.add q).add t = p.add (q.add t) := by
  simp [Rgb.add, Nat.add_assoc]

/-! ### The maxima of a round and the totals of the rounds -/

/-- The largest value of a channel among n samples from sample j on (44_whitebalance.md R213). -/
def State.roundMax (s : State) (d : Slot) (j n : Nat) (channel : Rgb → Nat) : Nat :=
  (Finset.range n).sup fun k => channel (s.sampledTriple d (j + k))

/-- The total of a channel over the rounds r to r + k - 1 (44_whitebalance.md R213). -/
def State.roundsTotal (s : State) (d : Slot) (samples r k : Nat) (channel : Rgb → Nat) : Nat :=
  ∑ m ∈ Finset.range k, s.roundMax d ((r + m) * samples) samples channel

theorem State.channelTotal_eq (s : State) (d : Slot) (samples rounds : Nat) :
    s.channelTotal d samples rounds = s.roundsTotal d samples 0 rounds := by
  funext channel
  simp [State.channelTotal, State.roundsTotal, State.roundMax]

/-- The maximum over n + 1 samples, the first one taken out. -/
theorem State.roundMax_succ (s : State) (d : Slot) (j n : Nat) :
    Rgb.ofChannels (s.roundMax d j (n + 1)) =
      (s.sampledTriple d j).max (Rgb.ofChannels (s.roundMax d (j + 1) n)) := by
  have head (channel : Rgb → Nat) : s.roundMax d j (n + 1) channel =
      Nat.max (channel (s.sampledTriple d j)) (s.roundMax d (j + 1) n channel) := by
    have shift (k : Nat) : j + 1 + k = j + (k + 1) := by omega
    simp only [State.roundMax, shift]
    rw [Finset.range_add_one', Finset.sup_insert, Finset.sup_map]
    rfl
  simp only [Rgb.ofChannels, Rgb.max, head]

/-- The total over k + 1 rounds, the first one taken out. -/
theorem State.roundsTotal_succ (s : State) (d : Slot) (samples r k : Nat) :
    Rgb.ofChannels (s.roundsTotal d samples r (k + 1)) =
      (Rgb.ofChannels (s.roundMax d (r * samples) samples)).add
        (Rgb.ofChannels (s.roundsTotal d samples (r + 1) k)) := by
  have head (channel : Rgb → Nat) : s.roundsTotal d samples r (k + 1) channel =
      s.roundMax d (r * samples) samples channel + s.roundsTotal d samples (r + 1) k channel := by
    unfold State.roundsTotal
    rw [Finset.sum_range_succ', Nat.add_comm]
    simp only [Nat.add_zero, Nat.add_assoc, Nat.add_comm 1]
  simp only [Rgb.ofChannels, Rgb.add, head]

/-! ### What the loops compute -/

/-- The first `count` samples decode to their raw triples. -/
def State.SamplesDecode (s : State) (d : Slot) (count : Nat) : Prop :=
  ∀ j < count, demosaic s.mem d (d.sampledPixel j).1 (d.sampledPixel j).2 = .ok (s.sampledTriple d j)

/-- Both coordinates of a sample are drawn off the border (44_whitebalance.md R212). -/
theorem Slot.sampledPixel_interior {d : Slot} (hw : 3 ≤ d.w.toNat) (hh : 3 ≤ d.h.toNat) (j : Nat) :
    d.Interior (d.sampledPixel j).1 (d.sampledPixel j).2 := by
  obtain ⟨left, right⟩ := drawn_bounds d.seed (2 * j) hw
  obtain ⟨above, below⟩ := drawn_bounds d.seed (2 * j + 1) hh
  exact ⟨left, right, above, below⟩

theorem State.samplesDecode_of_readable {s : State} {d : Slot} (legal : LegalFormat d.fmt) (hw : 3 ≤ d.w.toNat)
    (hh : 3 ≤ d.h.toNat) (readable : ∀ x y, d.Interior x y → s.ReadableAround d x y) (count : Nat) :
    s.SamplesDecode d count := fun j _ =>
  demosaic_interior legal (d.sampledPixel_interior hw hh j) (readable _ _ (d.sampledPixel_interior hw hh j))

theorem wbRounds_succ (m : Memory) (d : Slot) (samples k : Nat) (seed : Word) (total : Rgb) :
    wbRounds m d samples (k + 1) seed total =
      wbRound m d samples seed Rgb.zero >>= fun r => wbRounds m d samples k r.1 (total.add r.2) := rfl

section
variable {s : State} {d : Slot} {count : Nat} (decoded : s.SamplesDecode d count)
include decoded

/-- A round that begins at sample j joins the maxima of its n samples to the running ones (44_whitebalance.md R213). -/
theorem wbRound_sampled {j n : Nat} (mx : Rgb) (inRun : j + n ≤ count) :
    wbRound s.mem d n (seedAfter d.seed (2 * j)) mx =
      .ok (seedAfter d.seed (2 * (j + n)), mx.max (Rgb.ofChannels (s.roundMax d j n))) := by
  induction n generalizing j mx with
  | zero =>
    show Except.ok (_, mx) = Except.ok (_, mx.max Rgb.zero)
    rw [mx.max_zero, Nat.add_zero]
  | succ n ih =>
    have first : demosaic s.mem d (drawn (seedAfter d.seed (2 * j)) 0 d.w.toNat)
        (drawn (seedAfter d.seed (2 * j)) 1 d.h.toNat) = .ok (s.sampledTriple d j) := by
      rw [← drawn_add, ← drawn_add]
      exact decoded j (by omega)
    have rest := ih (j := j + 1) (mx.max (s.sampledTriple d j)) (by omega)
    rw [wbRound_succ, first, ← seedAfter_add, s.roundMax_succ, ← Rgb.max_assoc, Nat.add_comm n 1, ← Nat.add_assoc]
    exact rest

/-- The rounds from round r on add the maxima of each to the total (44_whitebalance.md R210, R213). -/
theorem wbRounds_sampled {samples r k : Nat} (total : Rgb) (inRun : (r + k) * samples ≤ count) :
    wbRounds s.mem d samples k (seedAfter d.seed (2 * (r * samples))) total =
      .ok (seedAfter d.seed (2 * ((r + k) * samples)),
        total.add (Rgb.ofChannels (s.roundsTotal d samples r k))) := by
  induction k generalizing r total with
  | zero => rfl
  | succ k ih =>
    have shift : r + (k + 1) = r + 1 + k := by omega
    rw [shift] at inRun ⊢
    have inRound : r * samples + samples ≤ count := by
      rw [← Nat.succ_mul]
      exact (Nat.mul_le_mul_right samples (by omega)).trans inRun
    have rest := ih (total.add (Rgb.ofChannels (s.roundMax d (r * samples) samples))) inRun
    rw [wbRounds_succ, wbRound_sampled decoded Rgb.zero inRound, Rgb.zero_max, ← Nat.succ_mul,
      s.roundsTotal_succ, ← Rgb.add_assoc]
    exact rest

end

/-- The rounds, when their samples decode, total each channel (44_whitebalance.md R210, R213). -/
theorem wbRounds_total {s : State} {d : Slot} {samples rounds : Nat}
    (decoded : s.SamplesDecode d (samples * rounds)) :
    wbRounds s.mem d samples rounds d.seed Rgb.zero =
      .ok (seedAfter d.seed (2 * samples * rounds), Rgb.ofChannels (s.channelTotal d samples rounds)) := by
  have run := wbRounds_sampled decoded (samples := samples) (r := 0) (k := rounds) Rgb.zero
    (by rw [Nat.zero_add, Nat.mul_comm])
  rwa [Nat.zero_mul, Nat.zero_add, Nat.mul_comm rounds, ← Nat.mul_assoc, Rgb.zero_add, ← s.channelTotal_eq] at run

end Sys2Proof.Machine
end

section
/-! PROOFS. WBAL: the limits of its arguments, the gains of the totals, and unit gains on a uniform frame. -/

namespace Sys2Proof.Machine

/-! ### The gains of the totals -/

/-- Below 2^64 the bit search is the library's square root. -/
theorem isqrt_eq_sqrt {n : Nat} (h : n < 2 ^ 64) : isqrt n = Nat.sqrt n :=
  Nat.eq_sqrt.2 (isqrtIsTheFloorRoot n h)

/-- Totals of 32 bits have a mean of squares below 2^64 (44_whitebalance.md R214). -/
theorem wbGain_eq_gainOf {t : Rgb} (hr : t.r < 2 ^ 32) (hg : t.g < 2 ^ 32) (hb : t.b < 2 ^ 32) (total : Nat) :
    wbGain (wbTarget t) total = gainOf t.r t.g t.b total := by
  have square {n : Nat} (h : n < 2 ^ 32) : n * n < 2 ^ 32 * 2 ^ 32 := Nat.mul_lt_mul'' h h
  have mean : (t.r * t.r + t.g * t.g + t.b * t.b) / 3 < 2 ^ 64 := by
    have := square hr
    have := square hg
    have := square hb
    omega
  rw [wbGain, wbTarget, isqrt_eq_sqrt mean, gainOf, Nat.pow_two, Nat.pow_two, Nat.pow_two]

/-- At most 65535 rounds of 16-bit maxima total below 2^32. -/
theorem State.channelTotal_lt (s : State) (d : Slot) {samples rounds : Nat} (few : rounds ≤ 65535)
    {channel : Rgb → Nat} (bound : ∀ j, channel (s.sampledTriple d j) < 65536) :
    s.channelTotal d samples rounds channel < 2 ^ 32 := by
  have perRound (m : Nat) (_ : m ∈ Finset.range rounds) :
      ((Finset.range samples).sup fun n => channel (s.sampledTriple d (m * samples + n))) ≤ 65535 :=
    Finset.sup_le fun n _ => Nat.le_of_lt_succ (bound _)
  have total := Finset.sum_le_card_nsmul _ _ _ perRound
  rw [Finset.card_range, smul_eq_mul] at total
  unfold State.channelTotal
  omega

/-- Equal positive totals have unit gain: the root of their mean square is the total (44_whitebalance.md R216). -/
theorem gainOf_equal {t : Nat} (positive : 0 < t) : gainOf t t t t = 65536#32 := by
  have mean : (t ^ 2 + t ^ 2 + t ^ 2) / 3 = t ^ 2 := by omega
  rw [gainOf, mean, Nat.sqrt_eq', Nat.mul_div_cancel _ positive]
  rfl

theorem wbFinish_guarded {total : Rgb} (zero : total.r = 0 ∨ total.g = 0 ∨ total.b = 0) (s : State) (i : Nat)
    (d : Slot) (seed : Word) :
    wbFinish s i d seed total = .next (State.answering
      { s with
        slots := s.slots.set i { d with gainR := 65536#32, gainG := 65536#32, gainB := 65536#32, seed := seed } }
      .guarded 65536#32 65536#32 65536#32) := by
  rw [wbFinish, if_pos zero]
  rfl

theorem wbFinish_ok {total : Rgb} (hr : total.r ≠ 0) (hg : total.g ≠ 0) (hb : total.b ≠ 0) {gain : Nat → Word}
    (gains : ∀ n, wbGain (wbTarget total) n = gain n) (s : State) (i : Nat) (d : Slot) (seed : Word) :
    wbFinish s i d seed total = .next (State.answering
      { s with
        slots := s.slots.set i
          { d with gainR := gain total.r, gainG := gain total.g, gainB := gain total.b, seed := seed } }
      .ok (gain total.r) (gain total.g) (gain total.b)) := by
  obtain rfl := funext gains
  rw [wbFinish, if_neg (by simp [hr, hg, hb])]
  rfl

/-! ### WBAL on a slot that may be decoded -/

section
variable {s : State} {i : Byte} {d : Slot} {samples rounds : Word} (decodes : s.MayDecode i d)
  (legal : LegalFormat d.fmt)
include decodes legal

/-- WBAL is rejected without an interior or past 65535 (44_whitebalance.md R210, R218). -/
theorem wbal_rejected
    (limit : d.w.toNat < 3 ∨ d.h.toNat < 3 ∨ 65535 < samples.toNat ∨ 65535 < rounds.toNat) :
    exec (.wbal i samples rounds) s = .next (s.answering .rejected) := by
  show execWbal i samples rounds s = _
  rw [execWbal, withDecodable_of_mayDecode decodes legal, if_pos limit]
  rfl

/-- Within its limits WBAL finishes with the channel totals of the samples it decodes (44_whitebalance.md R210). -/
theorem wbal_sampled (hw : 3 ≤ d.w.toNat) (hh : 3 ≤ d.h.toNat) (hsamples : samples.toNat ≤ 65535)
    (hrounds : rounds.toNat ≤ 65535) (decoded : s.SamplesDecode d (samples.toNat * rounds.toNat)) :
    exec (.wbal i samples rounds) s =
      wbFinish s i.toNat d (seedAfter d.seed (2 * samples.toNat * rounds.toNat))
        (Rgb.ofChannels (s.channelTotal d samples.toNat rounds.toNat)) := by
  show execWbal i samples rounds s = _
  rw [execWbal, withDecodable_of_mayDecode decodes legal, if_neg (by omega), wbRounds_total decoded]
  rfl

end

/-- Settles O55: with nothing to sample the totals are zero and the seed makes no step. -/
theorem wbalLimitsOfItsArguments : Obligations.WbalLimitsOfItsArguments := by
  intro s i d samples rounds decodes legal
  refine ⟨wbal_rejected decodes legal, fun hw hh hsamples hrounds nothing => ?_⟩
  have noSample : samples.toNat * rounds.toNat = 0 := Nat.mul_eq_zero.2 nothing
  have decoded : s.SamplesDecode d (samples.toNat * rounds.toNat) := by
    intro j hj
    omega
  have zero : s.channelTotal d samples.toNat rounds.toNat Rgb.r = 0 := by
    rcases nothing with h | h <;> simp [State.channelTotal, h]
  rw [wbal_sampled decodes legal hw hh hsamples hrounds decoded, wbFinish_guarded (.inl zero), Nat.mul_assoc, noSample]
  rfl

/-- Settles O53: every sampled pixel is interior and decodes, and the totals have 32 bits. -/
theorem wbalEstimatesTheGains : Obligations.WbalEstimatesTheGains := by
  intro s i d samples rounds decodes legal hw hh hsamples hrounds readable
  have small (j : Nat) := s.rawTriple_lt d (d.sampledPixel j).1 (d.sampledPixel j).2
  simp only [forall_and] at small
  obtain ⟨red, green, blue⟩ := small
  have tr := s.channelTotal_lt d (samples := samples.toNat) (channel := Rgb.r) hrounds red
  have tg := s.channelTotal_lt d (samples := samples.toNat) (channel := Rgb.g) hrounds green
  have tb := s.channelTotal_lt d (samples := samples.toNat) (channel := Rgb.b) hrounds blue
  have gains := wbGain_eq_gainOf (t := Rgb.ofChannels (s.channelTotal d samples.toNat rounds.toNat)) tr tg tb
  rw [wbal_sampled decodes legal hw hh hsamples hrounds (State.samplesDecode_of_readable legal hw hh readable _)]
  exact ⟨fun zero => wbFinish_guarded zero .., fun hr hg hb => wbFinish_ok hr hg hb gains ..⟩

/-! ### A uniform frame -/

/-- Where every sample is v so is every channel: the averages are of equal numbers (43_pixel.md R184). -/
theorem rawTriple_of_uniform {s : State} {d : Slot} {x y v : Nat}
    (uniform : ∀ x y, x < d.w.toNat → y < d.h.toNat → s.rawSample d x y = v) (interior : d.Interior x y) :
    s.rawTriple d x y = ⟨v, v, v⟩ := by
  obtain ⟨left, right, above, below⟩ := interior
  have near {x' y' : Nat} (hx : x' ≤ x + 1) (hy : y' ≤ y + 1) : s.rawSample d x' y' = v :=
    uniform x' y' (by omega) (by omega)
  have mean2 : (v + v) / 2 = v := by omega
  have mean4 : (v + v + v + v) / 4 = v := by omega
  simp (disch := omega) [State.rawTriple, near, mean2, mean4]

/-- Rounds of samples that all decode to one triple total it once per round. -/
theorem State.channelTotal_of_uniform {s : State} {d : Slot} {samples : Nat} {p : Rgb} (draws : 1 ≤ samples)
    (uniform : ∀ j, s.sampledTriple d j = p) (rounds : Nat) (channel : Rgb → Nat) :
    s.channelTotal d samples rounds channel = rounds * channel p := by
  have nonempty : (Finset.range samples).Nonempty := Finset.nonempty_range_iff.2 (by omega)
  simp [State.channelTotal, uniform, Finset.sup_const nonempty]

/-- Settles O54: the three totals are the number of rounds times the value. -/
theorem wbalIsIdempotentOnUniformFrames : Obligations.WbalIsIdempotentOnUniformFrames := by
  intro s i d samples rounds v decodes legal hw hh someSample hsamples someRound hrounds hv frame
  have uniform (x y : Nat) (hx : x < d.w.toNat) (hy : y < d.h.toNat) : s.rawSample d x y = v := (frame x y hx hy).2
  have readable (x y : Nat) (interior : d.Interior x y) : s.ReadableAround d x y := by
    intro q read
    obtain ⟨hx, hy⟩ := Slot.samplesRead_in_frame interior read
    exact ⟨(frame _ _ hx hy).1, (uniform _ _ hx hy).symm ▸ hv⟩
  have triple (j : Nat) : s.sampledTriple d j = ⟨v, v, v⟩ :=
    rawTriple_of_uniform uniform (d.sampledPixel_interior hw hh j)
  have total := State.channelTotal_of_uniform someSample triple rounds.toNat
  obtain ⟨guarded, ok⟩ :=
    wbalEstimatesTheGains s i d samples rounds decodes legal hw hh hsamples hrounds readable
  refine ⟨seedAfter d.seed (2 * samples.toNat * rounds.toNat), ?_⟩
  by_cases zero : v = 0
  · rw [if_pos zero]
    exact guarded (.inl (by rw [total, zero, Nat.mul_zero]))
  · have positive : 0 < rounds.toNat * v := Nat.mul_pos someRound (Nat.pos_of_ne_zero zero)
    simp only [total, gainOf_equal positive] at ok
    rw [if_neg zero]
    exact ok positive.ne' positive.ne' positive.ne'

end Sys2Proof.Machine
end

section
/-! PROOFS. The control registers: one equation per branch of each K operation (45_control.md R230 to R234), and what
a step can do to one control (R235). -/

namespace Sys2Proof.Machine

/-! ### What a step does to one control -/

/-- What holds of control k before a write to control j, and of the value written if j is k, holds after it. -/
theorem State.setCtrl_rule {P : Ctrl → Prop} {s : State} {j k : Fin 16} {c : Ctrl} (other : P s.ctrls[k])
    (same : j = k → P c) : P (s.setCtrl j c).ctrls[k] := by
  by_cases hjk : j = k
  · have written : (s.setCtrl j c).ctrls[k] = c := by simp [hjk]
    rw [written]
    exact same hjk
  · have kept : (s.setCtrl j c).ctrls[k] = s.ctrls[k] := by simp [Fin.val_ne_of_ne hjk]
    rw [kept]
    exact other

/-- What an operation can do to control k of value c: nothing, KSETUP's six fields, or a new current value. -/
inductive ControlChange (k : Fin 16) (c : Ctrl) : Instr → Ctrl → Prop
  | unchanged (i : Instr) : ControlChange k c i c
  | ksetup {ctl : Byte} {mn mx st df : Word} (named : ctl.toNat = k) :
      ControlChange k c (.ksetup ctl mn mx st df) ⟨true, mn, mx, st, df, df⟩
  | kset {ctl : Byte} {v : Word} (named : ctl.toNat = k) : ControlChange k c (.kset ctl v) { c with current := v }
  | ksetp {ctl : Byte} {p : Half} {v : Word} (named : ctl.toNat = k) :
      ControlChange k c (.ksetp ctl p) { c with current := v }

theorem frameEnd_ctrls {s t : State} {g : Word} (h : frameEnd s = .ok (t, g)) : t.ctrls = s.ctrls := by
  rcases frameEnd_cases h with ⟨-, rfl, -⟩ | ⟨d, -, -, -, rfl, -⟩ <;> rfl

theorem frameStart_ctrls {s t : State} {g : Word} (h : frameStart s = .ok (t, g)) : t.ctrls = s.ctrls := by
  rcases frameStart_cases h with ⟨-, rfl, -⟩ | ⟨-, -, rfl, -⟩ | ⟨d, -, -, -, rfl, -⟩ <;> rfl

/-- A change of an operation does to each control only what the K family may do to it. -/
theorem Change.control {i : Instr} {s t : State} (change : Change i s t) (k : Fin 16) :
    ControlChange k s.ctrls[k] i t.ctrls[k] := by
  cases change with
  | ksetup named => exact State.setCtrl_rule (.unchanged _) fun hjk => .ksetup (hjk ▸ named)
  | kset named => exact State.setCtrl_rule (.unchanged _) fun hjk => hjk ▸ .kset named
  | ksetp named => exact State.setCtrl_rule (.unchanged _) fun hjk => hjk ▸ .ksetp named
  | isrServices _ boundary frame =>
    have kept : t.ctrls = (s.writeBackStatus s.status0 s.status1).ctrls :=
      handler_keeps State.ctrls frameEnd_ctrls frameStart_ctrls boundary frame
    rw [kept]
    exact .unchanged _
  | unchanged | alloc | free | pub | rel | mode | start | stop | isrReturns | conv888 | conv565 | wbal =>
    exact .unchanged _

/-- A supported control stays supported (45_control.md R235). -/
theorem ControlChange.supported {k : Fin 16} {c c' : Ctrl} {i : Instr} (change : ControlChange k c i c')
    (supported : c.supported = true) : c'.supported = true := by
  cases change with
  | unchanged | kset | ksetp => exact supported
  | ksetup => rfl

/-- A control that changed was named by KSETUP, or by KSET or KSETP and kept its bounds (45_control.md R234). -/
theorem ControlChange.named {k : Fin 16} {c c' : Ctrl} {i : Instr} (change : ControlChange k c i c')
    {runs : Instr → Prop} (run : runs i) :
    c' = c ∨ ∃ ctl : Byte, ctl.toNat = k ∧
      ((∃ mn mx st df, runs (.ksetup ctl mn mx st df)) ∨
       (((∃ v, runs (.kset ctl v)) ∨ ∃ p, runs (.ksetp ctl p)) ∧ c' = { c with current := c'.current })) := by
  cases change with
  | unchanged => exact .inl rfl
  | ksetup named => exact .inr ⟨_, named, .inl ⟨_, _, _, _, run⟩⟩
  | kset named => exact .inr ⟨_, named, .inr ⟨.inl ⟨_, run⟩, rfl⟩⟩
  | ksetp named => exact .inr ⟨_, named, .inr ⟨.inr ⟨_, run⟩, rfl⟩⟩

/-- Settles O23: of the effects of a step only the change of an operation reaches a control. -/
theorem controlsChangeOnlyByTheirOwnOperations : Obligations.ControlsChangeOnlyByTheirOwnOperations := by
  intro s s' k h
  cases step_effect h with
  | quiet | environment => exact ⟨id, .inl rfl⟩
  | @receiver r => cases r <;> exact ⟨id, .inl rfl⟩
  | operation _ next decoded change =>
    have control := change.control k
    exact ⟨control.supported, control.named (runs := s.Runs) ⟨_, _, next, decoded⟩⟩

/-! ### KSETP's percentage -/

/-- Over an ordered range the truncation is a floor (45_control.md R232). -/
theorem percentValue_eq_floor {c : Ctrl} (ordered : c.min.toInt ≤ c.max.toInt) (p : Nat) :
    percentValue c p = c.min.toInt + (c.max.toInt - c.min.toInt) * p / 100 := by
  have product : 0 ≤ (c.max.toInt - c.min.toInt) * (p : Int) :=
    Int.mul_nonneg (Int.sub_nonneg_of_le ordered) (Int.natCast_nonneg p)
  rw [percentValue, Int.tdiv_eq_ediv_of_nonneg product]

theorem percentValue_zero (c : Ctrl) : percentValue c 0 = c.min.toInt := by
  simp [percentValue]

theorem percentValue_hundred (c : Ctrl) : percentValue c 100 = c.max.toInt := by
  have whole : ((c.max.toInt - c.min.toInt) * (100 : Nat)).tdiv 100 = c.max.toInt - c.min.toInt :=
    Int.mul_tdiv_cancel _ (by decide)
  rw [percentValue, whole]
  omega

/-! ### Operations on a control of the bank -/

section
variable {s : State} {ctl : Byte} {k : Fin 16} (named : ctl.toNat = k)
include named

/-- A selector of the bank runs the operation on the control it names. -/
theorem withCtrl_of_named (f : Fin 16 → Ctrl → Out) : withCtrl s ctl f = f k s.ctrls[k] := by
  obtain ⟨k, inBank⟩ := k
  obtain rfl : ctl.toNat = k := named
  exact dif_pos inBank

/-- KSETUP writes all six fields, current becoming default (45_control.md R230). -/
theorem execKsetup_of_ordered {mn mx df : Word} (lower : mn.toInt ≤ df.toInt) (upper : df.toInt ≤ mx.toInt)
    (st : Word) :
    execKsetup ctl mn mx st df s = .next ((s.setCtrl k ⟨true, mn, mx, st, df, df⟩).answering .ok) := by
  rw [execKsetup, withCtrl_of_named named, if_pos ⟨lower, upper⟩, respond_eq]

/-- KSET stores a value inside the bounds (45_control.md R231). -/
theorem execKset_of_inside {v : Word} (supported : s.ctrls[k].supported = true)
    (lower : s.ctrls[k].min.toInt ≤ v.toInt) (upper : v.toInt ≤ s.ctrls[k].max.toInt) :
    execKset ctl v s = .next ((s.setCtrl k { s.ctrls[k] with current := v }).answering .ok) := by
  have inside : ¬ (v.toInt < s.ctrls[k].min.toInt ∨ s.ctrls[k].max.toInt < v.toInt) := by omega
  rw [execKset, withCtrl_of_named named, if_neg (ne_false_of_eq_true supported), if_neg inside, respond_eq]

/-- KSET fails on an unsupported control and on a value outside the bounds (45_control.md R231). -/
theorem execKset_rejected {v : Word}
    (fails : s.ctrls[k].supported = false ∨ v.toInt < s.ctrls[k].min.toInt ∨ s.ctrls[k].max.toInt < v.toInt) :
    execKset ctl v s = .next (s.answering .rejected) := by
  rw [execKset, withCtrl_of_named named]
  rcases fails with unsupported | outside
  · rw [if_pos unsupported, reject_eq]
  · rw [if_pos outside, ite_self, reject_eq]

/-- KSETP stores the percentage of the range and answers it (45_control.md R232). -/
theorem execKsetp_of_percent {p : Half} (percent : p.toNat ≤ 100) (supported : s.ctrls[k].supported = true) :
    execKsetp ctl p s = .next (State.answering
      (s.setCtrl k { s.ctrls[k] with current := BitVec.ofInt 32 (percentValue s.ctrls[k] p.toNat) })
      .ok (BitVec.ofInt 32 (percentValue s.ctrls[k] p.toNat))) := by
  rw [execKsetp, withCtrl_of_named named, if_neg (not_lt.2 percent), if_neg (ne_false_of_eq_true supported), respond_eq]

/-- KSETP fails above 100 and on an unsupported control (45_control.md R232). -/
theorem execKsetp_rejected {p : Half} (fails : 100 < p.toNat ∨ s.ctrls[k].supported = false) :
    execKsetp ctl p s = .next (s.answering .rejected) := by
  rw [execKsetp, withCtrl_of_named named]
  rcases fails with above | unsupported
  · rw [if_pos above, reject_eq]
  · rw [if_pos unsupported, ite_self, reject_eq]

/-- KGET answers the current value of a supported control (45_control.md R233). -/
theorem execKget_of_supported (supported : s.ctrls[k].supported = true) :
    execKget ctl s = .next (s.answering .ok s.ctrls[k].current) := by
  rw [execKget, withCtrl_of_named named, if_neg (ne_false_of_eq_true supported), respond_eq]

theorem execKget_of_unsupported (unsupported : s.ctrls[k].supported = false) :
    execKget ctl s = .next (s.answering .rejected) := by
  rw [execKget, withCtrl_of_named named, if_pos unsupported, reject_eq]

/-- KINFO answers the bounds, step and default of a supported control (45_control.md R234). -/
theorem execKinfo_of_supported (supported : s.ctrls[k].supported = true) :
    execKinfo ctl s = .next
      (s.answering .ok s.ctrls[k].min s.ctrls[k].max s.ctrls[k].step s.ctrls[k].default) := by
  rw [execKinfo, withCtrl_of_named named, if_neg (ne_false_of_eq_true supported), respond_eq]

theorem execKinfo_of_unsupported (unsupported : s.ctrls[k].supported = false) :
    execKinfo ctl s = .next (s.answering .none) := by
  rw [execKinfo, withCtrl_of_named named, if_pos unsupported, respond_eq]

end

/-! ### The operations settled -/

/-- Settles O60: the percentage lies in the range, so the word stored is exact. -/
theorem ksetpMapsThePercent : Obligations.KsetpMapsThePercent := by
  intro s ctl k p named c
  refine ⟨execKsetp_rejected named, fun percent supported ordered => ?_⟩
  obtain ⟨lower, upper⟩ := percentValue_bounds ordered percent
  have stored : (BitVec.ofInt 32 (percentValue c p.toNat)).toInt = percentValue c p.toNat :=
    toInt_ofInt_of_between lower upper
  refine ⟨_, stored.trans (percentValue_eq_floor ordered _), stored.symm ▸ lower, stored.symm ▸ upper,
    fun zero => ?_, fun hundred => ?_, execKsetp_of_percent named percent supported⟩
  · rw [zero, percentValue_zero, BitVec.ofInt_toInt]
  · rw [hundred, percentValue_hundred, BitVec.ofInt_toInt]

/-- Settles O58: the selector is checked first, then the order of the bounds. -/
theorem ksetupConfiguresAControl : Obligations.KsetupConfiguresAControl := by
  intro s ctl mn mx st df
  refine ⟨fun k named lower upper => execKsetup_of_ordered named lower upper st, fun refused => ?_⟩
  rcases refused with past | broken
  · show execKsetup ctl mn mx st df s = _
    exact withCtrl_eq_refuse (decide_eq_false (not_lt.2 past)) _
  · exact execKsetup_eq_refuse (by simpa [setupWf, imp_iff_not_or] using broken)

/-- Settles O59: each operation has one branch for each case of its control. -/
theorem ksetKgetKinfoOnAControl : Obligations.KsetKgetKinfoOnAControl := by
  intro s ctl k v named c
  exact ⟨execKset_of_inside named, execKset_rejected named,
    fun supported => ⟨execKget_of_supported named supported, execKinfo_of_supported named supported⟩,
    fun unsupported => ⟨execKget_of_unsupported named unsupported, execKinfo_of_unsupported named unsupported⟩⟩

end Sys2Proof.Machine
end

section
/-! PROOFS. The two contexts: what the operations of port P and of port T leave unchanged (60_exceptions.md R260). -/

namespace Sys2Proof.Machine

/-! ### A column of the slots -/

section
variable {α : Type} {f : Slot → α} {s t : State} (same : t.slots.map f = s.slots.map f)
include same

theorem State.n_of_column : t.n = s.n := by
  have lengths := congrArg List.length same
  rwa [List.length_map, List.length_map] at lengths

/-- The slot that holds the place of d has d's entry in a column that did not change. -/
theorem State.slot_of_column {k : Nat} {d : Slot} (found : s.slots[k]? = some d) :
    ∃ d', t.slots[k]? = some d' ∧ f d' = f d := by
  have column : (t.slots.map f)[k]? = some (f d) := by
    rw [same, List.getElem?_map, found, Option.map_some]
  rwa [List.getElem?_map, Option.map_eq_some_iff] at column

end

/-! ### What the interrupt context never writes -/

/-- What the interrupt context never writes of a slot: its buffer, gains and seed. The rest is blank. -/
def Slot.taskPart (d : Slot) : Slot := { d with w := 0, h := 0, bpl := 0, fmt := 0, seq := 0, ts := 0 }

/-- What the interrupt context never writes of a state (60_exceptions.md R260). The rest is blank: the status registers,
the DMA pair, SEQ, ATTACHED, IN, READY_LOG, the response and the stamps of the slots. -/
def State.taskPart (s : State) : State :=
  { s with
    status0 := 0, status1 := 0, dmaStart := 0, dmaEnd := 0, seq := 0, attached := none, inCur := 0
    readyLog := [], resp := none, slots := s.slots.map Slot.taskPart }

/-- A stamp of one slot leaves the task part. -/
theorem State.setSlot_taskPart {s : State} {i : Nat} {d e : Slot} (found : s.slots[i]? = some d)
    (stamped : e.taskPart = d.taskPart) : (s.setSlot i e).taskPart = s.taskPart := by
  have column := State.setSlot_map_slots Slot.taskPart found stamped
  exact congrArg (fun slots => { s.taskPart with slots := slots }) column

theorem frameEnd_taskPart {s t : State} {g : Word} (h : frameEnd s = .ok (t, g)) : t.taskPart = s.taskPart := by
  rcases frameEnd_cases h with ⟨-, rfl, -⟩ | ⟨d, -, found, -, rfl, -⟩
  · rfl
  · exact State.setSlot_taskPart found rfl

theorem frameStart_taskPart {s t : State} {g : Word} (h : frameStart s = .ok (t, g)) :
    t.taskPart = s.taskPart := by
  rcases frameStart_cases h with ⟨-, rfl, -⟩ | ⟨-, -, rfl, -⟩ | ⟨d, -, -, found, rfl, -⟩
  · rfl
  · rfl
  · exact State.setSlot_taskPart found rfl

/-- A change of an operation of port P leaves the task part. -/
theorem Change.taskPart {i : Instr} {s t : State} (change : Change i s t) (interrupt : i.port = .interrupt) :
    t.taskPart = s.taskPart := by
  cases change with
  | unchanged | isrReturns => rfl
  | pub _ found => exact State.setSlot_taskPart found rfl
  | isrServices _ boundary frame =>
    have kept := handler_keeps State.taskPart frameEnd_taskPart frameStart_taskPart boundary frame
    exact kept
  | alloc | free | rel | mode | start | stop | conv888 | conv565 | wbal | ksetup | kset | ksetp =>
    exact nomatch interrupt

/-- Settles O21: a change of TAF, PUB or ISR leaves the task part, and its answer is no part of it. -/
theorem interruptContextLeavesTaskState : Obligations.InterruptContextLeavesTaskState := by
  intro i s s' interrupt h
  obtain ⟨t, r, change, rfl⟩ := exec_change i s s' h
  have keeps {α : Type} (field : State → α) : field t.taskPart = field s.taskPart :=
    congrArg field (change.taskPart interrupt)
  refine ⟨keeps State.outCur, keeps State.session, keeps State.armed, keeps State.cbEn, keeps State.modeW,
    keeps State.modeH, keeps State.modeBpl, keeps State.modeFmt, keeps State.modeValid,
    State.n_of_column (keeps State.slots), keeps State.ctrls, keeps State.frameActive,
    fun a => keeps (Memory.read ·.mem a), keeps State.params, keeps State.draws, keeps State.inputs,
    fun k d found => ?_⟩
  obtain ⟨d', found', part⟩ := State.slot_of_column (keeps State.slots) found
  have keepsWord (field : Slot → Word) : field d'.taskPart = field d.taskPart := congrArg field part
  exact ⟨d', found', keepsWord Slot.pa, keepsWord Slot.size, keepsWord Slot.gainR, keepsWord Slot.gainG,
    keepsWord Slot.gainB, keepsWord Slot.seed⟩

/-! ### What the task context never writes -/

/-- What no operation of port T writes: SEQ and the ready log, and what no operation at all writes: the parameters,
the environment's lines and the events to come. -/
def State.untouchedByTask (s : State) : Word × List Word × Params × Draws × List Event :=
  (s.seq, s.readyLog, s.params, s.draws, s.inputs)

/-- The engine's registers, which of port T only START and STOP write. -/
def State.engine (s : State) : Option Nat × Word × Word × Word × Word × Bool × Bool × Bool :=
  (s.attached, s.dmaStart, s.dmaEnd, s.status0, s.status1, s.frameActive, s.armed, s.cbEn)

/-- A slot's descriptor with its stamps, which of port T only ALLOC and FREE write (10_state.md R28). -/
def Slot.descriptor (d : Slot) : Word × Word × Half × Half × Word × Half × Word × Word :=
  (d.pa, d.size, d.w, d.h, d.bpl, d.fmt, d.seq, d.ts)

section
variable {i : Instr} {s t : State} (change : Change i s t) (task : i.port = .task)
include change task

theorem Change.untouchedByTask : t.untouchedByTask = s.untouchedByTask := by
  cases change with
  | pub | isrReturns | isrServices => exact nomatch task
  | unchanged | alloc | free | rel | mode | start | stop | conv888 | conv565 | wbal | ksetup | kset | ksetp => rfl

theorem Change.engine (notStop : i ≠ .stop) (notStart : ∀ cb, i ≠ .start cb) : t.engine = s.engine := by
  cases change with
  | start => exact absurd rfl (notStart _)
  | stop => exact absurd rfl notStop
  | pub | isrReturns | isrServices => exact nomatch task
  | unchanged | alloc | free | rel | mode | conv888 | conv565 | wbal | ksetup | kset | ksetp => rfl

/-- IN and the descriptors are written by ALLOC and FREE; WBAL writes a slot's gains and seed. -/
theorem Change.descriptors (notFree : i ≠ .free) (notAlloc : ∀ count, i ≠ .alloc count) :
    t.inCur = s.inCur ∧ t.slots.map Slot.descriptor = s.slots.map Slot.descriptor := by
  cases change with
  | alloc => exact absurd rfl (notAlloc _)
  | free => exact absurd rfl notFree
  | pub | isrReturns | isrServices => exact nomatch task
  | wbal found => exact ⟨rfl, State.setSlot_map_slots _ found rfl⟩
  | unchanged | rel | mode | start | stop | conv888 | conv565 | ksetup | kset | ksetp => exact ⟨rfl, rfl⟩

end

/-- Settles O22: a change of an operation of port T leaves each of the three parts above, under its exceptions. -/
theorem taskContextLeavesInterruptState : Obligations.TaskContextLeavesInterruptState := by
  intro i s s' task h
  obtain ⟨t, r, change, rfl⟩ := exec_change i s s' h
  obtain ⟨seq, readyLog, params, draws, inputs⟩ :
      t.seq = s.seq ∧ t.readyLog = s.readyLog ∧ t.params = s.params ∧ t.draws = s.draws ∧
        t.inputs = s.inputs := by
    simpa only [State.untouchedByTask, Prod.mk.injEq] using change.untouchedByTask task
  refine ⟨seq, readyLog, params, draws, inputs, fun notStop notStart => ?_, fun notFree notAlloc => ?_⟩
  · simpa [State.engine] using change.engine task notStop notStart
  · obtain ⟨inCur, column⟩ := change.descriptors task notFree notAlloc
    refine ⟨inCur, State.n_of_column column, fun k d found => ?_⟩
    simpa [Slot.descriptor] using State.slot_of_column column found

end Sys2Proof.Machine
end

section
/-! PROOFS. The receiver and the environment: when each step of RX is enabled, what it latches, and what leaves the
state alone (60_exceptions.md R258). -/

namespace Sys2Proof.Machine

/-! ### When a receiver step is enabled, and what it latches -/

theorem rxEnabled_fs_iff (s : State) :
    rxEnabled .fs s = true ↔ s.session = .streaming ∧ s.frameActive = false := by
  simp [rxEnabled]

theorem rxEnabled_active_iff (s : State) :
    rxEnabled .active s = true ↔ s.session = .streaming ∧ s.frameActive = true := by
  simp [rxEnabled]

theorem rxEnabled_fe_iff (fe pkt : Bool) (s : State) :
    rxEnabled (.fe fe pkt) s = true ↔
      s.session = .streaming ∧ s.frameActive = true ∧ (fe = true ∨ pkt = true) := by
  simp [rxEnabled]

theorem rxEnabled_extra_iff (rxa pkt fe : Bool) (s : State) :
    rxEnabled (.extra rxa pkt fe) s = true ↔ s.session = .streaming ∧ s.frameActive = false := by
  simp [rxEnabled]

theorem rxEffect_active (s : State) : rxEffect .active s = { s with status0 := s.status0 ||| 1#32 } := by
  simp [rxEffect, State.latch, bitRxa]

theorem rxEffect_fe (fe pkt : Bool) (s : State) :
    rxEffect (.fe fe pkt) s =
      { s with
        frameActive := false
        status0 := s.status0 ||| (if pkt then 3#32 else 1#32)
        status1 := s.status1 ||| (if fe then 2#32 else 0#32) } := by
  cases pkt <;> rfl

theorem rxEffect_extra (rxa pkt fe : Bool) (s : State) :
    rxEffect (.extra rxa pkt fe) s =
      { s with
        status0 := s.status0 ||| (if rxa then 1#32 else 0#32) ||| (if pkt then 2#32 else 0#32)
        status1 := s.status1 ||| (if fe then 2#32 else 0#32) } := by
  rw [BitVec.or_assoc]
  rfl

/-- Settles O8: each step is enabled, and has the effect its lemma says. -/
theorem receiverStepsLatchTheirConditions : Obligations.ReceiverStepsLatchTheirConditions := by
  intro s rest streaming t
  refine ⟨fun next outside => ?_, fun next during => ?_, fun fe pkt next during fired => ?_,
    fun rxa pkt fe next outside => ?_⟩
  · exact step_of_receiver next ((rxEnabled_fs_iff _).2 ⟨streaming, outside⟩)
  · rw [step_of_receiver next ((rxEnabled_active_iff _).2 ⟨streaming, during⟩), rxEffect_active]
    rfl
  · rw [step_of_receiver next ((rxEnabled_fe_iff ..).2 ⟨streaming, during, fired⟩), rxEffect_fe]
    rfl
  · rw [step_of_receiver next ((rxEnabled_extra_iff ..).2 ⟨streaming, outside⟩), rxEffect_extra]
    rfl

/-! ### What leaves the state alone -/

theorem step_of_dropped_receiver {s : State} {r : RxStep} {rest : List Event} (next : s.inputs = .rx r :: rest)
    (notEnabled : rxEnabled r { s with inputs := rest } ≠ true) : step s = .next (s.taking rest) := by
  simp [step, runNext, next, runEvent, runRx, notEnabled, State.taking, State.withResp]

theorem step_of_environment {s : State} {d : Draws} {rest : List Event} (next : s.inputs = .env d :: rest) :
    step s = .next { s.taking rest with draws := d } := by
  rw [step, runNext, next]
  rfl

theorem step_of_no_event {s : State} (noEvent : s.inputs = []) : step s = .next (s.taking []) := by
  rcases step_cases s with ⟨-, idles⟩ | ⟨e, rest, next, -⟩
  · rw [idles, State.taking, ← noEvent]
    rfl
  · exact nomatch noEvent.symm.trans next

/-- Settles O10: each condition that fails leaves its step not enabled. -/
theorem disabledReceiverAndEnvironmentChangeNothing :
    Obligations.DisabledReceiverAndEnvironmentChangeNothing := by
  intro s rest
  refine ⟨fun r next disabled => ?_, fun r next during kind => ?_, fun r next outside kind => ?_, fun next => ?_,
    fun a b next elsewhere => ?_, fun d => step_of_environment, step_of_no_event⟩
  · exact step_of_dropped_receiver next (Bool.eq_false_iff.1 (rxEnabled_of_disabled disabled r))
  · refine step_of_dropped_receiver next fun enabled => ?_
    have notDuring : s.frameActive = false := by
      rcases kind with rfl | ⟨rxa, pkt, fe, rfl⟩
      · exact ((rxEnabled_fs_iff _).1 enabled).2
      · exact ((rxEnabled_extra_iff ..).1 enabled).2
    exact nomatch during.symm.trans notDuring
  · refine step_of_dropped_receiver next fun enabled => ?_
    have during : s.frameActive = true := by
      rcases kind with rfl | ⟨a, b, rfl⟩ | ⟨fe, pkt, rfl⟩
      · exact ((rxEnabled_active_iff _).1 enabled).2
      · exact ((rxEnabled_data_iff ..).1 enabled).2.1
      · exact ((rxEnabled_fe_iff ..).1 enabled).2.1
    exact nomatch outside.symm.trans during
  · refine step_of_dropped_receiver next fun enabled => ?_
    obtain ⟨-, -, fired⟩ := (rxEnabled_fe_iff ..).1 enabled
    simp at fired
  · refine step_of_dropped_receiver next fun enabled => ?_
    obtain ⟨-, -, lower, upper⟩ := (rxEnabled_data_iff ..).1 enabled
    exact elsewhere.elim (not_lt.2 lower) (not_le.2 upper)

end Sys2Proof.Machine
end
